-- ==== Sys2Proof/Word.lean ====
section
/-! DEFINITION. The word types of the block: what the spec treats as bits is a bit vector, a channel number is a bounded number (00_scope.md R11). -/

namespace Sys2Proof

/-- One byte of sample memory (20_memory.md R50). -/
abbrev Byte := BitVec 8

/-- A 16-bit register or sample (10_state.md R21, R22). -/
abbrev Half := BitVec 16

/-- A 32-bit register, mask, value, address or count (30_encoding.md R86, R88). -/
abbrev Word := BitVec 32

/-- One packed stereo frame: right sample in bits 31:16, left in bits 15:0 (30_encoding.md R85). -/
abbrev Frame := BitVec 32

/-- A channel number, 0 to 15 (00_scope.md R6, `NCH`). -/
abbrev Chan := Fin 16

end Sys2Proof
end

