-- ==== Sys2Proof/Syntax.lean ====
section
/-! DEFINITION. The operations: one constructor per row of spec/opcode_table.json, in the table's order. Which channels
own a generator is a parameter (00_scope.md R7, `PULSE_CH`, `NOISE_CH`), so every operand that selects a channel is a
channel number. -/

namespace Sys2Proof

/-- An operation of the block: a producer command, a consumer request, an ADPCM code, a control-field value in its
effect, or a named internal step (00_scope.md R13, spec/INDEX.md). -/
inductive Instr where
  /-- `WR_CNT c, mask, value`, code 0x00 + c (R202). -/
  | wrCnt (c : Chan) (mask value : Word)
  /-- `WR_SAD c, mask, value`, code 0x10 + c (R206). -/
  | wrSad (c : Chan) (mask value : Word)
  /-- `WR_TMR c, mask, value`, code 0x20 + c (R207). -/
  | wrTmr (c : Chan) (mask value : Word)
  /-- `WR_PNT c, mask, value`, code 0x30 + c (R208). -/
  | wrPnt (c : Chan) (mask value : Word)
  /-- `WR_LEN c, mask, value`, code 0x40 + c (R209). -/
  | wrLen (c : Chan) (mask value : Word)
  /-- `WR_MASTER mask, value`, code 0x50 (R210). -/
  | wrMaster (mask value : Word)
  /-- `WR_BIAS mask, value`, code 0x60 (R211). -/
  | wrBias (mask value : Word)
  /-- `TICK`, code 0x70 (R100). -/
  | tick
  /-- `RD_CNT c`, code 0x80 + c (R212). -/
  | rdCnt (c : Chan)
  /-- `RD_SAD c`, code 0x90 + c (R212). -/
  | rdSad (c : Chan)
  /-- `RD_TMR c`, code 0xA0 + c (R212). -/
  | rdTmr (c : Chan)
  /-- `RD_PNT c`, code 0xB0 + c (R212). -/
  | rdPnt (c : Chan)
  /-- `RD_LEN c`, code 0xC0 + c (R212). -/
  | rdLen (c : Chan)
  /-- `RD_MASTER`, code 0xD0 (R212). -/
  | rdMaster
  /-- `RD_BIAS`, code 0xE0 (R212). -/
  | rdBias
  /-- A command code that names no operation: 0xFn, and 0x5n, 0x6n, 0x7n, 0xDn, 0xEn with n other than 0 (R89). -/
  | reservedFx (code : Byte)
  /-- `REQ count`, the one request of the `req` port (R88, R178). -/
  | req (count : Word)
  /-- `NIB.0`: the ADPCM code 0x0 decoded by channel `c` (R135). -/
  | nib0 (c : Chan)
  /-- `NIB.1`: the ADPCM code 0x1 decoded by channel `c` (R135). -/
  | nib1 (c : Chan)
  /-- `NIB.2`: the ADPCM code 0x2 decoded by channel `c` (R135). -/
  | nib2 (c : Chan)
  /-- `NIB.3`: the ADPCM code 0x3 decoded by channel `c` (R135). -/
  | nib3 (c : Chan)
  /-- `NIB.4`: the ADPCM code 0x4 decoded by channel `c` (R135). -/
  | nib4 (c : Chan)
  /-- `NIB.5`: the ADPCM code 0x5 decoded by channel `c` (R135). -/
  | nib5 (c : Chan)
  /-- `NIB.6`: the ADPCM code 0x6 decoded by channel `c` (R135). -/
  | nib6 (c : Chan)
  /-- `NIB.7`: the ADPCM code 0x7 decoded by channel `c` (R135). -/
  | nib7 (c : Chan)
  /-- `NIB.8`: the ADPCM code 0x8 decoded by channel `c` (R135). -/
  | nib8 (c : Chan)
  /-- `NIB.9`: the ADPCM code 0x9 decoded by channel `c` (R135). -/
  | nib9 (c : Chan)
  /-- `NIB.A`: the ADPCM code 0xA decoded by channel `c` (R135). -/
  | nibA (c : Chan)
  /-- `NIB.B`: the ADPCM code 0xB decoded by channel `c` (R135). -/
  | nibB (c : Chan)
  /-- `NIB.C`: the ADPCM code 0xC decoded by channel `c` (R135). -/
  | nibC (c : Chan)
  /-- `NIB.D`: the ADPCM code 0xD decoded by channel `c` (R135). -/
  | nibD (c : Chan)
  /-- `NIB.E`: the ADPCM code 0xE decoded by channel `c` (R135). -/
  | nibE (c : Chan)
  /-- `NIB.F`: the ADPCM code 0xF decoded by channel `c` (R135). -/
  | nibF (c : Chan)
  /-- `FORMAT.PCM8`: CNT[c][30:29] = 0, the work of a channel of this format in one TICK (R101, R107). -/
  | formatPcm8 (c : Chan)
  /-- `FORMAT.PCM16`: CNT[c][30:29] = 1 (R102, R107). -/
  | formatPcm16 (c : Chan)
  /-- `FORMAT.ADPCM`: CNT[c][30:29] = 2 (R103, R140). -/
  | formatAdpcm (c : Chan)
  /-- `FORMAT.PSG`: CNT[c][30:29] = 3 (R103, R108, R109, R111). -/
  | formatPsg (c : Chan)
  /-- `REPEAT.MANUAL`: CNT[c][28:27] = 0, what the end of data does to channel `c` (R112). -/
  | repeatManual (c : Chan)
  /-- `REPEAT.LOOP`: CNT[c][28:27] = 1 (R112, R141). -/
  | repeatLoop (c : Chan)
  /-- `REPEAT.ONESHOT`: CNT[c][28:27] = 2 (R112). -/
  | repeatOneshot (c : Chan)
  /-- `REPEAT.RESERVED`: CNT[c][28:27] = 3 (R112). -/
  | repeatReserved (c : Chan)
  /-- `RAW.PCM8` (R101). -/
  | rawPcm8 (c : Chan)
  /-- `RAW.PCM16` (R102). -/
  | rawPcm16 (c : Chan)
  /-- `RAW.ADPCM` (R103). -/
  | rawAdpcm (c : Chan)
  /-- `RAW.PULSE` on a channel of `PULSE_CH` (R103). -/
  | rawPulse (c : Chan)
  /-- `RAW.NOISE` on a channel of `NOISE_CH` (R103). -/
  | rawNoise (c : Chan)
  /-- `RAW.NONE` on a channel without a generator (R103). -/
  | rawNone (c : Chan)
  /-- `TIMER`: the increment and the overflow loop (R104, R105). -/
  | timer (c : Chan)
  /-- `ADV.PCM8` (R107). -/
  | advPcm8 (c : Chan)
  /-- `ADV.PCM16` (R107). -/
  | advPcm16 (c : Chan)
  /-- `ADV.PULSE` on a channel of `PULSE_CH` (R108). -/
  | advPulse (c : Chan)
  /-- `ADV.NOISE` on a channel of `NOISE_CH` (R109). -/
  | advNoise (c : Chan)
  /-- `ADV.ADPCM` (R110, R140). -/
  | advAdpcm (c : Chan)
  /-- `ADV.NONE` on a channel without a generator (R111). -/
  | advNone (c : Chan)
  /-- `END`: the end-of-data check (R112). -/
  | endCheck (c : Chan)
  /-- `SNAP.CAPTURE` (R133). -/
  | snapCapture (c : Chan)
  /-- `SNAP.RESTORE` (R141). -/
  | snapRestore (c : Chan)
  /-- `VOLUME` (R150). -/
  | volume (c : Chan)
  /-- `PAN` (R152). -/
  | pan (c : Chan)
  /-- `MIX.MASTER` (R155). -/
  | mixMaster
  /-- `MIX.BIAS` (R156). -/
  | mixBias
  /-- `MIX.CLIP` (R157). -/
  | mixClip
  /-- `MIX.RECENTRE` (R158). -/
  | mixRecentre
  /-- `MIX.PACK` (R159). -/
  | mixPack
  /-- `PUSH(frame)` (R171). -/
  | push (frame : Frame)
  /-- `SWAP.REQ` (R173). -/
  | swapReq
  /-- `SWAP` (R174). -/
  | swap
  /-- `SWAP_RELEASE` (R176). -/
  | swapRelease
  /-- `REQ.START(count)` (R178). -/
  | reqStart (count : Word)
  /-- `RESIZE(count)` (R179). -/
  | resize (count : Word)
  /-- `REQ.TAKE` (R181). -/
  | reqTake
  /-- `REQ.EXPIRE` (R182). -/
  | reqExpire
  /-- `REQ.FALLBACK` (R183). -/
  | reqFallback
  /-- `RELOAD(c)` (R203). -/
  | reload (c : Chan)
  /-- `START.ADPCM(c)` (R205). -/
  | startAdpcm (c : Chan)
  /-- `RESET`, the effect of the `rst` port (R260). -/
  | reset
deriving DecidableEq, Repr

end Sys2Proof
end

