-- ==== Sys2Proof/WellFormed.lean ====
section
/-! DEFINITION. Well-formed operations. Every operand is bounded by its type; the one check left is that a `RESERVED.Fx`
carries a code that names no operation (30_encoding.md R89). -/

namespace Sys2Proof

/-- The codes of 30_encoding.md R89: `code[7:4] = 0xF`, and 0x5, 0x6, 0x7, 0xD, 0xE with `code[3:0] != 0`. -/
def isReservedCode (code : Byte) : Bool :=
  let op := (code.extractLsb' 4 4).toNat
  op == 15 || ((op == 5 || op == 6 || op == 7 || op == 13 || op == 14) && code.extractLsb' 0 4 != 0)

/-- An operation that some encoding, or some step of a rule, stands for. -/
def Instr.wf (i : Instr) : Bool :=
  match i with
  | .reservedFx code => isReservedCode code
  | _ => true

/-- The operations with no encoding: the internal steps of spec/opcode_table.json ("no encoding: internal step"). -/
def Instr.isInternal (i : Instr) : Bool :=
  match i with
  | .rawPcm8 _ | .rawPcm16 _ | .rawAdpcm _ | .rawPulse _ | .rawNoise _ | .rawNone _ | .timer _ | .advPcm8 _
  | .advPcm16 _ | .advPulse _ | .advNoise _ | .advAdpcm _ | .advNone _ | .endCheck _ | .snapCapture _
  | .snapRestore _ | .volume _ | .pan _ | .mixMaster | .mixBias | .mixClip | .mixRecentre | .mixPack | .push _
  | .swapReq | .swap | .swapRelease | .reqStart _ | .resize _ | .reqTake | .reqExpire | .reqFallback | .reload _
  | .startAdpcm _ | .reset => true
  | _ => false

end Sys2Proof
end

