-- ==== Sys2Proof/Decode.lean ====
section
/-! DEFINITION. Decoding: from the bits on a port, or in a byte of ADPCM data, or in a control register, to the operation
they stand for; then the encoder, from the same tables of 30_encoding.md. Decoding is total: every command code, every
request word, every 4-bit code and every field value is an operation, the reserved codes the one of that name. -/

namespace Sys2Proof

/-- An encoded operation with the place it is found: a 72-bit word of the `cmd` port (R86), a 32-bit word of the `req`
port (R88), a 4-bit code of channel `c` (R82), or a control register value of channel `c` whose `FORMAT` or `REPEAT`
field is looked at (R71). -/
inductive Encoded where
  | command (w : BitVec 72)
  | request (w : Word)
  | nibble (c : Chan) (n : BitVec 4)
  | formatField (c : Chan) (cnt : Word)
  | repeatField (c : Chan) (cnt : Word)
deriving DecidableEq, Repr

/-- `code[7:0]` of a command, bits 71:64 (30_encoding.md R86). -/
def commandCode (w : BitVec 72) : Byte := w.extractLsb' 64 8

/-- `mask[31:0]` of a command, bits 63:32 (R86). -/
def commandMask (w : BitVec 72) : Word := w.extractLsb' 32 32

/-- `wdata[31:0]` of a command, bits 31:0 (R86). -/
def commandData (w : BitVec 72) : Word := w.extractLsb' 0 32

/-- `code[3:0]`, the channel (R86). -/
def codeChan (code : Byte) : Chan := (code.extractLsb' 0 4).toFin

/-- The operation of a command, by the table of 30_encoding.md R87; what the table does not name is reserved (R89). The
mask and the value are used by `WR_x` only (R86). -/
def decodeCommand (w : BitVec 72) : Instr :=
  let code := commandCode w
  let c := codeChan code
  let m := commandMask w
  let v := commandData w
  match (code.extractLsb' 4 4).toNat with
  | 0 => .wrCnt c m v
  | 1 => .wrSad c m v
  | 2 => .wrTmr c m v
  | 3 => .wrPnt c m v
  | 4 => .wrLen c m v
  | 5 => if c = 0 then .wrMaster m v else .reservedFx code
  | 6 => if c = 0 then .wrBias m v else .reservedFx code
  | 7 => if c = 0 then .tick else .reservedFx code
  | 8 => .rdCnt c
  | 9 => .rdSad c
  | 10 => .rdTmr c
  | 11 => .rdPnt c
  | 12 => .rdLen c
  | 13 => if c = 0 then .rdMaster else .reservedFx code
  | 14 => if c = 0 then .rdBias else .reservedFx code
  | _ => .reservedFx code

/-- The sixteen ADPCM codes (41_adpcm.md R135). -/
def decodeNibble (c : Chan) (n : BitVec 4) : Instr :=
  match n.toNat with
  | 0 => .nib0 c
  | 1 => .nib1 c
  | 2 => .nib2 c
  | 3 => .nib3 c
  | 4 => .nib4 c
  | 5 => .nib5 c
  | 6 => .nib6 c
  | 7 => .nib7 c
  | 8 => .nib8 c
  | 9 => .nib9 c
  | 10 => .nibA c
  | 11 => .nibB c
  | 12 => .nibC c
  | 13 => .nibD c
  | 14 => .nibE c
  | _ => .nibF c

/-- `CNT[30:29]` (30_encoding.md R71): the rows of the table, at the positions and with the codes it gives. The machine
looks at its control registers through the parameters (`formatOf` of Machine/Operands.lean). -/
def decodeFormatField (c : Chan) (cnt : Word) : Instr :=
  match (cnt.extractLsb' 29 2).toNat with
  | 0 => .formatPcm8 c
  | 1 => .formatPcm16 c
  | 2 => .formatAdpcm c
  | _ => .formatPsg c

/-- `CNT[28:27]` (30_encoding.md R71): the rows of the table; the machine uses `repeatOf`. -/
def decodeRepeatField (c : Chan) (cnt : Word) : Instr :=
  match (cnt.extractLsb' 27 2).toNat with
  | 0 => .repeatManual c
  | 1 => .repeatLoop c
  | 2 => .repeatOneshot c
  | _ => .repeatReserved c

/-- The operation an encoding stands for. -/
def decode (e : Encoded) : Instr :=
  match e with
  | .command w => decodeCommand w
  | .request w => .req w
  | .nibble c n => decodeNibble c n
  | .formatField c cnt => decodeFormatField c cnt
  | .repeatField c cnt => decodeRepeatField c cnt

/-- The 72-bit command, code, mask and wdata from the high bits down (30_encoding.md R86). -/
def packCommand (code : Byte) (mask wdata : Word) : BitVec 72 := code ++ mask ++ wdata

/-- The code byte of operation `op` on channel `c` (R86). -/
def packCode (op : BitVec 4) (c : Chan) : Byte := op ++ BitVec.ofFin (w := 4) c

/-- The encoding of an operation, by the tables of 30_encoding.md R71, R82, R86 to R89; the internal steps have none.
Bits that R86 says are ignored are 0, and so are the bits of a control register outside the field. -/
def encode (i : Instr) : Option Encoded :=
  match i with
  | .wrCnt c m v => some (.command (packCommand (packCode 0x0 c) m v))
  | .wrSad c m v => some (.command (packCommand (packCode 0x1 c) m v))
  | .wrTmr c m v => some (.command (packCommand (packCode 0x2 c) m v))
  | .wrPnt c m v => some (.command (packCommand (packCode 0x3 c) m v))
  | .wrLen c m v => some (.command (packCommand (packCode 0x4 c) m v))
  | .wrMaster m v => some (.command (packCommand (packCode 0x5 0) m v))
  | .wrBias m v => some (.command (packCommand (packCode 0x6 0) m v))
  | .tick => some (.command (packCommand (packCode 0x7 0) 0 0))
  | .rdCnt c => some (.command (packCommand (packCode 0x8 c) 0 0))
  | .rdSad c => some (.command (packCommand (packCode 0x9 c) 0 0))
  | .rdTmr c => some (.command (packCommand (packCode 0xA c) 0 0))
  | .rdPnt c => some (.command (packCommand (packCode 0xB c) 0 0))
  | .rdLen c => some (.command (packCommand (packCode 0xC c) 0 0))
  | .rdMaster => some (.command (packCommand (packCode 0xD 0) 0 0))
  | .rdBias => some (.command (packCommand (packCode 0xE 0) 0 0))
  | .reservedFx code => some (.command (packCommand code 0 0))
  | .req count => some (.request count)
  | .nib0 c => some (.nibble c 0)
  | .nib1 c => some (.nibble c 1)
  | .nib2 c => some (.nibble c 2)
  | .nib3 c => some (.nibble c 3)
  | .nib4 c => some (.nibble c 4)
  | .nib5 c => some (.nibble c 5)
  | .nib6 c => some (.nibble c 6)
  | .nib7 c => some (.nibble c 7)
  | .nib8 c => some (.nibble c 8)
  | .nib9 c => some (.nibble c 9)
  | .nibA c => some (.nibble c 10)
  | .nibB c => some (.nibble c 11)
  | .nibC c => some (.nibble c 12)
  | .nibD c => some (.nibble c 13)
  | .nibE c => some (.nibble c 14)
  | .nibF c => some (.nibble c 15)
  | .formatPcm8 c => some (.formatField c 0x00000000)
  | .formatPcm16 c => some (.formatField c 0x20000000)
  | .formatAdpcm c => some (.formatField c 0x40000000)
  | .formatPsg c => some (.formatField c 0x60000000)
  | .repeatManual c => some (.repeatField c 0x00000000)
  | .repeatLoop c => some (.repeatField c 0x08000000)
  | .repeatOneshot c => some (.repeatField c 0x10000000)
  | .repeatReserved c => some (.repeatField c 0x18000000)
  | _ => none

/-! ### Words given as bytes, in the numbering of spec/opcode_table.json

The table numbers the code byte as bits 7:0; the mask and the value follow as two 32-bit words, each with its least
significant byte first (log entry 3: the ports carry fields, not bytes, so this order is the model's). -/

/-- The two ports that take an operation (00_scope.md R9). -/
inductive Port where
  | cmd
  | req
deriving DecidableEq, Repr

/-- Why a string of bytes is no word of a port. -/
inductive DecodeError where
  | shortCommand (have_ : Nat)
  | longCommand (have_ : Nat)
  | shortRequest (have_ : Nat)
  | longRequest (have_ : Nat)
deriving DecidableEq, Repr

/-- A 32-bit word from its bytes, least significant first. -/
def wordOfBytes (b0 b1 b2 b3 : Byte) : Word := b3 ++ b2 ++ b1 ++ b0

/-- The command in nine bytes: code, mask, value (30_encoding.md R86: one fixed length). -/
def commandOfBytes (bs : List Byte) : Except DecodeError (BitVec 72) :=
  match bs with
  | [code, m0, m1, m2, m3, v0, v1, v2, v3] =>
    .ok (packCommand code (wordOfBytes m0 m1 m2 m3) (wordOfBytes v0 v1 v2 v3))
  | _ => if bs.length < 9 then .error (.shortCommand bs.length) else .error (.longCommand bs.length)

/-- The request in four bytes (30_encoding.md R88). -/
def requestOfBytes (bs : List Byte) : Except DecodeError Word :=
  match bs with
  | [n0, n1, n2, n3] => .ok (wordOfBytes n0 n1 n2 n3)
  | _ => if bs.length < 4 then .error (.shortRequest bs.length) else .error (.longRequest bs.length)

/-- The decoder on bytes: total, and a string that is no word of the port is rejected by name. -/
def decodeBytes (p : Port) (bs : List Byte) : Except DecodeError Instr :=
  match p with
  | .cmd => (commandOfBytes bs).map fun w => decode (.command w)
  | .req => (requestOfBytes bs).map fun w => decode (.request w)

/-- The first `n` bytes of the number `w`, least significant first. -/
def bytesOfNat (n w : Nat) : List Byte :=
  match n with
  | 0 => []
  | n + 1 => BitVec.ofNat 8 w :: bytesOfNat n (w / 256)

/-- The port whose words have `nbits` bits in spec/opcode_table.json: a command is known by its code byte (8 bits) or
written whole (72 bits), a request is 32 bits. -/
def tablePort (nbits : Nat) : Option Port :=
  match nbits with
  | 8 => some .cmd
  | 72 => some .cmd
  | 32 => some .req
  | _ => none

/-- The operation the decoder reads from the bits `w`, numbered as spec/opcode_table.json numbers them; the bits above
`nbits` are 0. A row of the table whose bits stand on no port (an ADPCM code, a control field) shares its bits with a
command or a request and is read as that (log entry 3). -/
def decodeTableWord (nbits w : Nat) : Option Instr :=
  match tablePort nbits with
  | some .cmd => (decodeBytes .cmd (bytesOfNat 9 (w % 2 ^ nbits))).toOption
  | some .req => (decodeBytes .req (bytesOfNat 4 (w % 2 ^ nbits))).toOption
  | none => none

end Sys2Proof
end

