-- ==== Sys2Proof/Config.lean ====
section
/-! DEFINITION. The free values: what the spec leaves without a value is an opaque constant, about which nothing can be
proved but that it is a value. The parameters of 00_scope.md R7 are plain data in State (`Machine.Params` of
Machine/Parameters.lean). -/

namespace Sys2Proof

/-- `U(b, i)` of 43_synchronizer.md R179: the frame that resize number `draw` leaves at index `i` of buffer `b`, "a
value the model draws once, at the resize, under no law" (log entry 11). -/
opaque Config.drawnFrame : Nat → Bool → Nat → Frame

/-- The frame read at index `i` of buffer `b` beyond the frames the buffer has. No reachable state reads one
(log entry 12). -/
opaque Config.absentFrame : Bool → Nat → Frame

/-- The entry of the step table at an index above 88, which no reachable state uses (10_state.md R34 item 1; log
entry 13). It has the 15 bits of an entry (10_state.md R29). -/
opaque Config.stepBeyondTable : Nat → BitVec 15

end Sys2Proof
end

