-- ==== Sys2Proof/Machine/Parameters.lean ====
section
/-! DEFINITION. The parameters. Those of 00_scope.md R6 are fixed by the document and are definitions. Those of R7, which
the document leaves open, are fields of `Params`, plain data in State that no step changes: "a named argument of the
model", with the values the spec gives as the default (92_eei_decisions.md, `Open parameters, collected`;
93_implementation_defined.md U2, U7, U8, U18, U19, K1 to K10, K13). -/

namespace Sys2Proof.Machine

/-! ### Fixed by the document (R6) -/

/-- `TICK_INC`: what a TICK adds to the timer counter of an enabled channel (R6, 40_channel_engine.md R104). -/
def tickInc : Half := 512

/-- At least the number of passes of the overflow loop: "the loop ends after at most 512 advances" (R105). -/
def timerPasses : Nat := 512

/-- `ACC_MAX` (R6, 41_adpcm.md R137). -/
def accMax : Int := 0x7FFF

/-- `ACC_MIN` (R6, R137). -/
def accMin : Int := -0x7FFF

/-- `IDX_MAX` (R6, R138). -/
def idxMax : Nat := 88

/-- `PSG_HI` (R6, 40_channel_engine.md R103). -/
def psgHi : Int := 0x7FFF

/-- `PSG_LO` (R6, R103). -/
def psgLo : Int := -0x7FFF

/-- `OUT_MIN` (R6, 42_volume_pan_mixer.md R157). -/
def outMin : Int := 0

/-- `OUT_MAX` (R6, R157). -/
def outMax : Int := 1023

/-- `OUT_CENTRE` (R6, R158). -/
def outCentre : Int := 0x200

/-- `OUT_SHIFT` (R6, R158). -/
def outShift : Nat := 5

/-- What a byte of sample memory that nothing is listed for reads as: the spec gives the memory no contents (R261), and
every read has an answer (20_memory.md R56). DESIGN CHOICE, log entry 4. -/
def unlistedByte : Byte := 0

/-! ### Left open by the document (R7) -/

/-- The four sample formats. -/
inductive Format where
  | pcm8
  | pcm16
  | adpcm
  | psg
deriving DecidableEq, Repr

/-- The four values of the loop-mode field. -/
inductive RepeatMode where
  | manual
  | loop
  | oneshot
  | reserved
deriving DecidableEq, Repr

/-- The generator a channel owns. -/
inductive Generator where
  | pulse
  | noise
  | silent
deriving DecidableEq, Repr

/-- The effective write masks (R7, 44_register_bank.md R201; decision D3). -/
structure Masks where
  /-- `CNT_MASK`. -/
  cnt : Word
  /-- `SAD_MASK`. -/
  sad : Word
  /-- `TMR_MASK`. -/
  tmr : Half
  /-- `PNT_MASK`. -/
  pnt : Half
  /-- `LEN_MASK`. -/
  len : Word
  /-- `MASTER_MASK`. -/
  master : Half
  /-- `BIAS_MASK`. -/
  bias : Half
deriving DecidableEq, Repr

/-- The lowest bit of each field of `CNT` and `MASTER`, and the numeric codes of two of them (30_encoding.md R70, R71,
R76; decision D3). The widths are the document's, and so is `EN` = bit 31. -/
structure Layout where
  /-- `VMUL`, 7 bits. -/
  vmul : Nat
  /-- `VDIV`, 2 bits. -/
  vdiv : Nat
  /-- `PAN`, 7 bits. -/
  pan : Nat
  /-- `DUTY`, 3 bits. -/
  duty : Nat
  /-- `REPEAT`, 2 bits. -/
  rep : Nat
  /-- `FORMAT`, 2 bits. -/
  format : Nat
  /-- `MVOL` of `MASTER`, 7 bits. -/
  mvol : Nat
  /-- The format of each `FORMAT` code. -/
  formatCodes : Vector Format 4
  /-- The loop mode of each `REPEAT` code. -/
  repeatCodes : Vector RepeatMode 4
deriving DecidableEq, Repr

/-- The parameters of R7. No step changes them. -/
structure Params where
  /-- `BUF_MAX`, the largest capacity: OPEN (D26; log entry 7). -/
  bufMax : Nat
  /-- `MEM_PRIV`, the value driven on the `privileged` argument of every read: OPEN (D22; log entry 8). -/
  memPriv : Bool
  /-- `ADPCM_FIRST_NIBBLE` is high instead of the default low: OPEN (D8; log entry 9). -/
  highNibbleFirst : Bool
  /-- `MANUAL_STOPS`: loop mode manual, and the reserved one, clear the enable bit at the end of data (D16). -/
  manualStops : Bool
  /-- `MVOL_127_IS_128` (D19). -/
  mvol127Is128 : Bool
  /-- An enable edge restarts the generator of the channel (D12, K13). -/
  psgRestart : Bool
  /-- `CAP_RESET`, the capacity after reset (D26). -/
  capReset : Nat
  /-- `LFSR_INIT` (D12). -/
  lfsrInit : Half
  /-- `LFSR_TAP` (D12). -/
  lfsrTap : Half
  /-- `PULSE_CH`, the channels with a duty counter (D11). -/
  pulseCh : List Chan
  /-- `NOISE_CH`, the channels with a noise register (D11). -/
  noiseCh : List Chan
  /-- `STEP_TABLE[0..88]`, entries of 15 bits (10_state.md R29, 41_adpcm.md R131; D5). -/
  stepTable : Vector (BitVec 15) 89
  /-- `INDEX_DELTA[0..7]` (R29, 41_adpcm.md R132; D5). -/
  indexDelta : Vector Int 8
  /-- The effective write masks (D3). -/
  masks : Masks
  /-- The field positions and codes (D3). -/
  layout : Layout
deriving DecidableEq, Repr

/-! ### The spec's values -/

/-- The entries of `STEP_TABLE` (41_adpcm.md R131). -/
def stepList : List (BitVec 15) :=
  [7, 8, 9, 10, 11, 12, 13, 14, 16, 17, 19, 21, 23, 25, 28, 31]
    ++ [34, 37, 41, 45, 50, 55, 60, 66, 73, 80, 88, 97, 107, 118, 130, 143]
    ++ [157, 173, 190, 209, 230, 253, 279, 307, 337, 371, 408, 449, 494, 544, 598, 658]
    ++ [724, 796, 876, 963, 1060, 1166, 1282, 1411, 1552, 1707, 1878, 2066, 2272, 2499, 2749, 3024]
    ++ [3327, 3660, 4026, 4428, 4871, 5358, 5894, 6484, 7132, 7845, 8630, 9493, 10442, 11487, 12635, 13899]
    ++ [15289, 16818, 18500, 20350, 22385, 24623, 27086, 29794, 32767]

/-- The masks of R7. -/
def Masks.default : Masks where
  cnt := 0xFF7F837F
  sad := 0x07FFFFFC
  tmr := 0xFFFF
  pnt := 0xFFFF
  len := 0x003FFFFF
  master := 0xBF7F
  bias := 0x03FF

/-- The positions and codes of 30_encoding.md R70, R71 and R76. -/
def Layout.default : Layout where
  vmul := 0
  vdiv := 8
  pan := 16
  duty := 24
  rep := 27
  format := 29
  mvol := 0
  formatCodes := #v[.pcm8, .pcm16, .adpcm, .psg]
  repeatCodes := #v[.manual, .loop, .oneshot, .reserved]

/-- The values of R7; `BUF_MAX`, which has none, at the value the fault vectors take (95_test_vectors.md F; log entry
7). -/
def Params.default : Params where
  bufMax := 65536
  memPriv := true
  highNibbleFirst := false
  manualStops := true
  mvol127Is128 := true
  psgRestart := true
  capReset := 0
  lfsrInit := 0x7FFF
  lfsrTap := 0x6000
  pulseCh := [8, 9, 10, 11, 12, 13]
  noiseCh := [14, 15]
  stepTable := ⟨⟨stepList⟩, rfl⟩
  indexDelta := #v[-1, -1, -1, -1, 2, 4, 6, 8]
  masks := Masks.default
  layout := Layout.default

end Sys2Proof.Machine
end

