-- ==== Sys2Proof/Machine/State.lean ====
section
/-! DEFINITION. The state of the block (10_state.md R20), of the surroundings its rules read (R33), and the model's own
bookkeeping; and the state right after reset (R35). Plain data throughout. A one-bit register is a `Bool`: 1 is
`true`. -/

namespace Sys2Proof.Machine

/-- Why the machine stops. -/
inductive Fault where
  /-- `FLT_RESIZE_RACE` was raised earlier and no reset has come since: "the spec gives no behaviour for the real block
  from here on; a model stops" (60_exceptions.md R231). Raised by `step` at the next turn of the producer or the
  consumer. Safe: the model stops where the real block goes on in a way nobody states. -/
  | resizeRace
deriving DecidableEq, Repr

/-- Why an operation has no meaning. -/
inductive Refusal where
  /-- The operation of this mnemonic has no meaning yet. Raised by no arm of this model. Safe: nothing is claimed of such
  an operation. -/
  | notModelled (mnemonic : String)
deriving DecidableEq, Repr

/-- A label of the fault record with its information (60_exceptions.md R231). -/
inductive FaultRecord where
  /-- `FLT_ALLOC`, code 1: a request for more frames than the buffers can hold. -/
  | alloc (count : Word)
  /-- `FLT_REQ_ZERO`, code 2: a request for no frames. -/
  | reqZero (count : Word)
  /-- `FLT_RESIZE_RACE`, code 3: a resize while a swap is pending. -/
  | resizeRace (count : Word)
  /-- `FLT_CMD_RESERVED`, code 4: a command code that names no operation. -/
  | cmdReserved (code : Byte)
deriving DecidableEq, Repr

/-- `REQ_PHASE`: where the consumer is inside a request (10_state.md R31). -/
inductive ReqPhase where
  | idle
  | waiting
  | expired
deriving DecidableEq, Repr

/-- The registers of one channel: the register bank (10_state.md R21), the playback registers (R24), the ADPCM decoder
with its loop-state cache (R25), and the register of its generator (R26). Which channels own one is a parameter
(`PULSE_CH`, `NOISE_CH`), so every channel has the place for it: with the spec's values `DUTYC[k]` is that of channel
`8 + k` and `LFSR[j]` that of channel `14 + j`; a place no generator owns is no register of the spec and nothing reads it
(log entry 25). -/
structure Channel where
  /-- `CNT[c]`; bit 31 is the enable flag (R23). -/
  cnt : Word
  /-- `SAD[c]`, the source address. -/
  sad : Word
  /-- `TMR[c]`, the timer reload value. -/
  tmr : Half
  /-- `PNT[c]`, the loop-start offset in 4-byte words. -/
  pnt : Half
  /-- `LEN[c]`, the length in 4-byte words. -/
  len : Word
  /-- `PTR[c]`, the current read pointer. -/
  ptr : Word
  /-- `TCNT[c]`, the running timer counter. -/
  tcnt : Half
  /-- `ACC[c]`, the accumulator: 17 bits, two's complement. -/
  acc : BitVec 17
  /-- `IDX[c]`, the step index. -/
  idx : BitVec 7
  /-- `NSEL[c]`, the nibble selector. -/
  nsel : Bool
  /-- `SNAP_ACC[c]`, the loop snapshot of `ACC[c]`. -/
  snapAcc : BitVec 17
  /-- `SNAP_IDX[c]`, the loop snapshot of `IDX[c]`. -/
  snapIdx : BitVec 7
  /-- `DUTYC` of this channel, if it is one of `PULSE_CH` (R26). -/
  dutyc : BitVec 3
  /-- `LFSR` of this channel, if it is one of `NOISE_CH`; bit 15 the cached polarity (R26). -/
  lfsr : Half
deriving DecidableEq, Repr

/-- One thing the block has driven on an output port. -/
inductive PortEvent where
  /-- A transaction of the `mem` port: `priv`, address, size in bytes, and M's answer (20_memory.md R50, R55). -/
  | memRead (priv : Bool) (addr : Word) (size : Nat) (data : Word)
  /-- `cmd_rdata` of an `RD_x` command (00_scope.md R9). -/
  | rdata (value : Word)
  /-- The frames delivered on `req_data`, in index order (R9). -/
  | reqData (frames : List Frame)
deriving DecidableEq, Repr

/-- Who acts next: the interleaving of the agents and of the inputs, which no rule orders (10_state.md R33,
20_memory.md R61; log entry 1). -/
inductive Turn where
  /-- The producer takes a step, if it can. -/
  | producer
  /-- The consumer takes a step, if it can; while waiting it polls the ready flag. -/
  | consumer
  /-- The consumer takes a step and its deadline has passed (43_synchronizer.md R182). -/
  | deadline
  /-- The settings provider drives `limit_rate` (00_scope.md R9). -/
  | limitRate (level : Bool)
  /-- Another master stores a byte into sample memory (20_memory.md R60). -/
  | poke (addr : Word) (value : Byte)
  /-- `rst` is asserted (70_reset_and_hazards.md R260). -/
  | reset
deriving DecidableEq, Repr

/-- The latches between the named sub-steps of a TICK, in the order the rules of 40_channel_engine.md and
42_volume_pan_mixer.md compute them: used only where a sub-step is run as an operation of its own (log entry 14). The
values are unbounded integers (42_volume_pan_mixer.md R153). -/
structure Datapath where
  /-- The raw sample (R101 to R103). -/
  raw : Int
  /-- The scaled sample with 11 fractional bits (R150). -/
  s11 : Int
  /-- The left contribution (R152). -/
  l : Int
  /-- The right contribution (R152). -/
  r : Int
  /-- The left sum over the channels (R153). -/
  sumL : Int
  /-- The right sum over the channels (R153). -/
  sumR : Int
  /-- The left sum scaled by the master volume (R155). -/
  mL : Int
  /-- The right sum scaled by the master volume (R155). -/
  mR : Int
  /-- The left value with the bias added (R156). -/
  bL : Int
  /-- The right value with the bias added (R156). -/
  bR : Int
  /-- The left value clipped (R157). -/
  vL : Int
  /-- The right value clipped (R157). -/
  vR : Int
  /-- The left output sample (R158). -/
  oL : Int
  /-- The right output sample (R158). -/
  oR : Int
  /-- The packed frame (R159). -/
  frame : Frame
deriving DecidableEq, Repr

/-- Sample memory: address and byte, addresses strictly rising, no byte equal to `unlistedByte` (see `memWf`). -/
abbrev Memory := List Host.Cell

/-- The whole state. -/
structure State where
  /-- The registers of the 16 channels. -/
  chans : Vector Channel 16
  /-- `MASTER` (R22). -/
  master : Half
  /-- `BIAS` (R22). -/
  bias : Half
  /-- `BUF[0]` (R30). -/
  buf0 : List Frame
  /-- `BUF[1]` (R30). -/
  buf1 : List Frame
  /-- `WSEL`: which buffer the producer owns (R30). -/
  wsel : Bool
  /-- `WCUR`, the write cursor (R30). -/
  wcur : Nat
  /-- `CAP`, frames per buffer (R30). -/
  cap : Nat
  /-- `READY` (R30). -/
  ready : Bool
  /-- `SWAP_PENDING` (R31); the output `cmd_hold` (00_scope.md R9). -/
  swapPending : Bool
  /-- `REQ_PHASE` (R31). -/
  reqPhase : ReqPhase
  /-- `REQ_COUNT` (R31). -/
  reqCount : Word
  /-- `FAULT` (R31); the output `fault` (00_scope.md R9). -/
  fault : Option FaultRecord
  /-- The input level `limit_rate` (00_scope.md R9). -/
  limitRate : Bool
  /-- Sample memory, the agent M (00_scope.md R10). -/
  mem : Memory
  /-- Stores of other masters that land inside the block's commands: those of the first entry land just before the
  block's next read, those of the second just before the read after it, and so on (20_memory.md R60,
  70_reset_and_hazards.md R266; log entry 5). -/
  busStores : List (List (Word × Byte))
  /-- The parameters of R7. -/
  params : Params
  /-- Commands waiting at the `cmd` port, the next one first. -/
  cmdQ : List (BitVec 72)
  /-- Requests waiting at the `req` port, the next one first. -/
  reqQ : List Word
  /-- Who acts, the next one first. -/
  turns : List Turn
  /-- MODEL: what the output ports have carried, newest first (20_memory.md R55; log entry 18). -/
  history : List PortEvent
  /-- MODEL: the latches between sub-steps (log entry 14). -/
  dp : Datapath
  /-- MODEL: the number of resizes and resets so far; it selects the free frames of the next one (log entry 11). -/
  draws : Nat
  /-- MODEL: `FLT_RESIZE_RACE` has been raised since reset (log entry 17). -/
  raced : Bool
deriving DecidableEq, Repr

/-- A channel right after reset (10_state.md R35), with `LFSR_INIT`. -/
def Channel.reset (lfsrInit : Half) : Channel where
  cnt := 0
  sad := 0
  tmr := 0
  pnt := 0
  len := 0
  ptr := 0
  tcnt := 0
  acc := 0
  idx := 0
  nsel := false
  snapAcc := 0
  snapIdx := 0
  dutyc := 0
  lfsr := lfsrInit

/-- Latches with nothing in them. -/
def Datapath.idle : Datapath where
  raw := 0
  s11 := 0
  l := 0
  r := 0
  sumL := 0
  sumR := 0
  mL := 0
  mR := 0
  bL := 0
  bR := 0
  vL := 0
  vR := 0
  oL := 0
  oR := 0
  frame := 0

/-- The machine right after reset: the block as 10_state.md R35 says, the surroundings with nothing waiting, nothing
listed in memory, `limit_rate` 0 and the parameters at the spec's values (log entries 4, 7 and 20). `CAP_RESET` being 0,
there is no frame. -/
def State.reset : State where
  chans := Vector.replicate 16 (Channel.reset Params.default.lfsrInit)
  master := 0
  bias := 0
  buf0 := []
  buf1 := []
  wsel := false
  wcur := 0
  cap := Params.default.capReset
  ready := false
  swapPending := false
  reqPhase := .idle
  reqCount := 0
  fault := none
  limitRate := false
  mem := []
  busStores := []
  params := Params.default
  cmdQ := []
  reqQ := []
  turns := []
  history := []
  dp := Datapath.idle
  draws := 0
  raced := false

end Sys2Proof.Machine
end

