-- ==== Sys2Proof/Machine/Ops.lean ====
section
/-! DEFINITION. The named operations over registers, memory and ports, and `raise`, the one operation that takes a fault
(00_scope.md R12). There is no trap entry and no trap return (60_exceptions.md R235): `raise` is all there is. -/

namespace Sys2Proof.Machine

/-- The answer of an operation that has its effect. -/
abbrev Result := Host.Outcome State Fault Refusal

/-! ### Channels and generators -/

/-- `X[c]`: the registers of channel `c` (00_scope.md R12). -/
def getChan (s : State) (c : Chan) : Channel := s.chans[c]

/-- `X[c] <- v` for the registers of channel `c` (00_scope.md R12). -/
def setChan (s : State) (c : Chan) (ch : Channel) : State := { s with chans := s.chans.set c ch }

/-- The generator of channel `c`, by `PULSE_CH` and `NOISE_CH` (00_scope.md R7, 10_state.md R26). -/
def genOf (p : Params) (c : Chan) : Generator :=
  if c ∈ p.pulseCh then .pulse else if c ∈ p.noiseCh then .noise else .silent

/-- The duty counter of channel `c` takes a value (R26). -/
def setDuty (c : Chan) (v : BitVec 3) (s : State) : State := setChan s c { getChan s c with dutyc := v }

/-- The noise register of channel `c` takes a value (R26). -/
def setLfsr (c : Chan) (v : Half) (s : State) : State := setChan s c { getChan s c with lfsr := v }

/-- A sub-step of one kind of channel, run alone: on a channel of another kind it does not happen (log entry 15). -/
def whenOwner (g : Generator) (c : Chan) (s : State) (run : State → State) : State :=
  if genOf s.params c = g then run s else s

/-- Put a value into the latches between sub-steps (log entry 14). -/
def setDp (s : State) (dp : Datapath) : State := { s with dp := dp }

/-! ### Sample memory (20_memory.md) -/

/-- The byte at an address. -/
def memGet : Memory → Nat → Byte
  | [], _ => unlistedByte
  | (k, v) :: m, a => if a = k then v else memGet m a

/-- The memory after a store of one byte by another master (20_memory.md R60), in the canonical form: addresses strictly
rising, no byte equal to what an unlisted address reads as. -/
def memPut : Memory → Nat → Byte → Memory
  | [], a, v => if v = unlistedByte then [] else [(a, v)]
  | (k, w) :: m, a, v =>
    if a < k then (if v = unlistedByte then (k, w) :: m else (a, v) :: (k, w) :: m)
    else if a = k then (if v = unlistedByte then m else (a, v) :: m)
    else (k, w) :: memPut m a v

/-- The memory after stores, the first one first. -/
def storeAll : Memory → List (Word × Byte) → Memory
  | m, [] => m
  | m, (a, v) :: rest => storeAll (memPut m a.toNat v) rest

/-- The canonical form from address `lo` up, inside the 32-bit address space (20_memory.md R57). -/
def memWfFrom : Nat → Memory → Bool
  | _, [] => true
  | lo, (k, v) :: m => decide (lo ≤ k) && decide (k < 2 ^ 32) && decide (v ≠ unlistedByte) && memWfFrom (k + 1) m

/-- The canonical form of sample memory. -/
def memWf (m : Memory) : Bool := memWfFrom 0 m

/-- The little-endian value of `n` bytes from address `a` up, each byte address taken mod 2^32 (20_memory.md R52). -/
def memBytes (m : Memory) (a : Word) : Nat → Nat
  | 0 => 0
  | n + 1 => (memGet m a.toNat).toNat + 256 * memBytes m (a + 1) n

/-- M's answer to `MemRead(a, n)` as its contents stand, `n` in 1, 2, 4: an unsigned number of `8n` bits (20_memory.md
R50, R52). -/
def memValue (m : Memory) (a : Word) (n : Nat) : Word := BitVec.ofNat 32 (memBytes m a n)

/-- The stores of other masters that M has made visible before the block's next read (20_memory.md R60). -/
def landStores (s : State) : State :=
  { s with mem := storeAll s.mem (s.busStores.headD []), busStores := s.busStores.tail }

/-! ### Output ports -/

/-- An output port carries something (log entry 18). -/
def emit (e : PortEvent) (s : State) : State := { s with history := e :: s.history }

/-- The transaction `MemRead(a, n)` on the `mem` port, with `priv = MEM_PRIV` (20_memory.md R50, R55): what M holds when
the read is performed, after the stores that land before it (R60). -/
def readMem (a : Word) (n : Nat) (s : State) : Word × State :=
  let t := landStores s
  let v := memValue t.mem a n
  (v, emit (.memRead t.params.memPriv a n v) t)

/-! ### Faults -/

/-- The code of a label (60_exceptions.md R231). -/
def faultCode (f : FaultRecord) : Nat :=
  match f with
  | .alloc _ => 1
  | .reqZero _ => 2
  | .resizeRace _ => 3
  | .cmdReserved _ => 4

/-- Whether the label is the one after which the spec gives no behaviour (60_exceptions.md R231). -/
def isRace (f : FaultRecord) : Bool :=
  match f with
  | .resizeRace _ => true
  | _ => false

/-- `raise` (00_scope.md R12, 60_exceptions.md R231, R233): the step does not happen; the record takes the label if it
holds none and keeps the first one otherwise. -/
def raiseFault (f : FaultRecord) (s : State) : State :=
  { s with fault := some (s.fault.getD f), raced := s.raced || isRace f }

/-! ### The command port -/

/-- A command at the `cmd` port: executed while `SWAP_PENDING = 0`, else it waits at the port and nothing happens
(43_synchronizer.md R175, 44_register_bank.md R200). -/
def whenAccepted (s : State) (run : State → State) : State := if s.swapPending then s else run s

end Sys2Proof.Machine
end

