-- ==== Sys2Proof/Machine/Flags.lean ====
section
/-! DEFINITION. The one-bit state of 10_state.md R28 and how it is computed: the enable bit and its edge, the carry of the
timer, the polarity bit of the noise register. The block has no condition codes. -/

namespace Sys2Proof.Machine

/-- `CNT[c][31]`, the enable flag (10_state.md R23). -/
def cntEnabled (cnt : Word) : Bool := cnt.getLsbD 31

/-- `CNT[c][31] <- 0` (40_channel_engine.md R112). -/
def clearEnable (cnt : Word) : Word := cnt &&& 0x7FFFFFFF

/-- The enable edge, judged on the stored bit before and after the masked update (44_register_bank.md R202). -/
def enableEdge (old new : Word) : Bool := !cntEnabled old && cntEnabled new

/-- A 17-bit sum of two 16-bit numbers: its low 16 bits and its bit 16 (40_channel_engine.md R104, R105). -/
def timerAdd (a b : Half) : Half × Bool := (a + b, decide (2 ^ 16 ≤ a.toNat + b.toNat))

/-- `LFSR[j][15]`, the cached polarity (10_state.md R26). -/
def polarity (x : Half) : Bool := x.getLsbD 15

/-- `cmd_hold`: 1 while the producer domain is stalled (00_scope.md R9). -/
def cmdHold (s : State) : Bool := s.swapPending

end Sys2Proof.Machine
end

