-- ==== Sys2Proof/Machine/Operands.lean ====
section
/-! DEFINITION. Operands: the masked write, the fields of the registers and what their values mean (30_encoding.md R70 to
R78) at the positions of the parameters, the addresses a channel computes, the sample formats, and the integer primitives of 00_scope.md R12. -/

namespace Sys2Proof.Machine

/-! ### Integers -/

/-- `clamp(v, lo, hi)` (00_scope.md R12). -/
def clamp (v lo hi : Int) : Int := if v < lo then lo else if hi < v then hi else v

/-- `sext_8` of a number held in 32 bits (00_scope.md R12). -/
def sext8 (v : Word) : Int := (v.truncate 8).toInt

/-- `sext_16` of a number held in 32 bits (00_scope.md R12). -/
def sext16 (v : Word) : Int := (v.truncate 16).toInt

/-! ### The masked write -/

/-- `WRITE` (44_register_bank.md R200): the effective mask is the command's mask inside the register's. -/
def maskedWrite {w : Nat} (reg groupMask mask value : BitVec w) : BitVec w :=
  let eff := mask &&& groupMask
  (reg &&& ~~~eff) ||| (value &&& eff)

/-! ### Fields of CNT (30_encoding.md R70, R71) -/

/-- `FORMAT`, bits 30:29 with the spec's layout. -/
def formatOf (p : Params) (cnt : Word) : Format := p.layout.formatCodes[(cnt.extractLsb' p.layout.format 2).toFin]

/-- `REPEAT`, bits 28:27 with the spec's layout. -/
def repeatOf (p : Params) (cnt : Word) : RepeatMode := p.layout.repeatCodes[(cnt.extractLsb' p.layout.rep 2).toFin]

/-- A 7-bit field whose value 127 acts as 128 (42_volume_pan_mixer.md R150, R152). -/
def upTo128 (field : BitVec 7) : Nat := if field = 127 then 128 else field.toNat

/-- The divisor shift from `VDIV`, bits 9:8: the value 3 maps to 4 (R150). -/
def divShift (p : Params) (cnt : Word) : Nat :=
  let f := cnt.extractLsb' p.layout.vdiv 2
  if f = 3 then 4 else f.toNat

/-- The volume factor from `VMUL`, bits 6:0 (R150). -/
def volFactor (p : Params) (cnt : Word) : Nat := upTo128 (cnt.extractLsb' p.layout.vmul 7)

/-- The pan value from `PAN`, bits 22:16 (R152). -/
def panFactor (p : Params) (cnt : Word) : Nat := upTo128 (cnt.extractLsb' p.layout.pan 7)

/-- The pulse threshold from `DUTY`, bits 26:24: 7 minus the field (40_channel_engine.md R103). -/
def dutyThreshold (p : Params) (cnt : Word) : Nat := 7 - (cnt.extractLsb' p.layout.duty 3).toNat

/-! ### Fields of MASTER and BIAS -/

/-- The master volume from `MVOL`, bits 6:0 (42_volume_pan_mixer.md R155). -/
def masterVolume (p : Params) (master : Half) : Nat :=
  let f := master.extractLsb' p.layout.mvol 7
  if f = 127 && p.mvol127Is128 then 128 else f.toNat

/-- `BIAS[9:0]` (42_volume_pan_mixer.md R156). -/
def biasValue (bias : Half) : Nat := (bias.extractLsb' 0 10).toNat

/-! ### Addresses of a channel -/

/-- The loop start `(SAD + 4 * PNT) mod 2^32` (30_encoding.md R74, 40_channel_engine.md R112). -/
def loopStart (ch : Channel) : Word := ch.sad + 4 * ch.pnt.zeroExtend 32

/-- The end-of-data address `(SAD + 4 * (PNT + LEN)) mod 2^32` (30_encoding.md R75, R112). -/
def endAddr (ch : Channel) : Word := ch.sad + 4 * (ch.pnt.zeroExtend 32 + ch.len)

/-! ### ADPCM words (30_encoding.md R80 to R82) -/

/-- `HACC`, bits 15:0 of the header, as the accumulator seed: signed, not clamped (44_register_bank.md R205). -/
def headerAcc (h : Word) : BitVec 17 := (h.truncate 16).signExtend 17

/-- `HIDX`, bits 22:16 of the header, clamped to 88 (R205). -/
def headerIdx (h : Word) : BitVec 7 := BitVec.ofNat 7 (min (h.extractLsb' 16 7).toNat idxMax)

/-- The half of a data byte that the selector names: 0 selects bits 3:0 and 1 bits 7:4 with the default
`ADPCM_FIRST_NIBBLE` (41_adpcm.md R134), the other way round with the parameter high (log entry 9). -/
def selectNibble (highFirst nsel : Bool) (b : Word) : BitVec 4 :=
  if nsel != highFirst then b.extractLsb' 4 4 else b.extractLsb' 0 4

/-- `STEP_TABLE[IDX]` (41_adpcm.md R136); an index above 88, which no reachable state holds, has a free value (log
entry 13). -/
def stepSize (p : Params) (idx : BitVec 7) : Nat :=
  if h : idx.toNat < 89 then p.stepTable[idx.toNat].toNat else (Config.stepBeyondTable idx.toNat).toNat

/-- `INDEX_DELTA[n[2:0]]` (41_adpcm.md R132). -/
def indexChange (p : Params) (n : BitVec 4) : Int := p.indexDelta[(n.extractLsb' 0 3).toFin]

/-- The delta of a code: each term truncated on its own (41_adpcm.md R136). -/
def nibbleDelta (t : Nat) (n : BitVec 4) : Nat :=
  t / 8 + (if n.getLsbD 0 then t / 4 else 0) + (if n.getLsbD 1 then t / 2 else 0) + (if n.getLsbD 2 then t else 0)

end Sys2Proof.Machine
end

