-- ==== Sys2Proof/Machine/RegisterBank.lean ====
section
/-! DEFINITION. The register bank (44_register_bank.md): masked writes, the enable edge with its reload and header load,
raw reads, and the command codes that name no operation. -/

namespace Sys2Proof.Machine

/-! ### Shared operations -/

/-- `START.ADPCM(c)`, the header load (R205). -/
def loadHeader (c : Chan) (s : State) : State :=
  let ch := getChan s c
  let r := readMem ch.sad 4 s
  setChan r.2 c { ch with acc := headerAcc r.1, idx := headerIdx r.1, nsel := false, ptr := ch.sad + 4 }

/-- The generator of channel `c` starts again: `DUTYC <- 0` or `LFSR <- LFSR_INIT` (R203); whether an edge does that is a
parameter (D12). -/
def restartGenerator (c : Chan) (s : State) : State :=
  if s.params.psgRestart then
    match genOf s.params c with
    | .pulse => setDuty c 0 s
    | .noise => setLfsr c s.params.lfsrInit s
    | .silent => s
  else s

/-- `RELOAD(c)`, the enable-edge reload (R203). -/
def reloadChan (c : Chan) (s : State) : State :=
  let ch := getChan s c
  let s1 := setChan s c { ch with ptr := ch.sad, tcnt := ch.tmr }
  match formatOf s.params ch.cnt with
  | .adpcm => loadHeader c s1
  | .psg => restartGenerator c s1
  | .pcm8 => s1
  | .pcm16 => s1

/-- The masked write of `CNT[c]` with its edge (R202): the register first, then the reload. -/
def writeCnt (c : Chan) (mask value : Word) (s : State) : State :=
  let ch := getChan s c
  let new := maskedWrite ch.cnt s.params.masks.cnt mask value
  let s1 := setChan s c { ch with cnt := new }
  if enableEdge ch.cnt new then reloadChan c s1 else s1

/-- `cmd_rdata` takes a stored value, zero-extended (R212). -/
def readOut (value : Word) (s : State) : State := emit (.rdata value) s

/-! ### Writes -/

/-- `WR_CNT` (R202). -/
def execWrCnt (c : Chan) (mask value : Word) (s : State) : Result :=
  .next (whenAccepted s (writeCnt c mask value))

/-- `WR_SAD` (R206). -/
def execWrSad (c : Chan) (mask value : Word) (s : State) : Result :=
  .next (whenAccepted s fun s =>
    let ch := getChan s c
    setChan s c { ch with sad := maskedWrite ch.sad s.params.masks.sad mask value })

/-- `WR_TMR`: bits 31:16 of mask and value are ignored (R207). -/
def execWrTmr (c : Chan) (mask value : Word) (s : State) : Result :=
  .next (whenAccepted s fun s =>
    let ch := getChan s c
    setChan s c { ch with tmr := maskedWrite ch.tmr s.params.masks.tmr (mask.truncate 16) (value.truncate 16) })

/-- `WR_PNT` (R208). -/
def execWrPnt (c : Chan) (mask value : Word) (s : State) : Result :=
  .next (whenAccepted s fun s =>
    let ch := getChan s c
    setChan s c { ch with pnt := maskedWrite ch.pnt s.params.masks.pnt (mask.truncate 16) (value.truncate 16) })

/-- `WR_LEN` (R209). -/
def execWrLen (c : Chan) (mask value : Word) (s : State) : Result :=
  .next (whenAccepted s fun s =>
    let ch := getChan s c
    setChan s c { ch with len := maskedWrite ch.len s.params.masks.len mask value })

/-- `WR_MASTER` (R210). -/
def execWrMaster (mask value : Word) (s : State) : Result :=
  .next (whenAccepted s fun s =>
    { s with master := maskedWrite s.master s.params.masks.master (mask.truncate 16) (value.truncate 16) })

/-- `WR_BIAS` (R211). -/
def execWrBias (mask value : Word) (s : State) : Result :=
  .next (whenAccepted s fun s =>
    { s with bias := maskedWrite s.bias s.params.masks.bias (mask.truncate 16) (value.truncate 16) })

/-! ### Reads (R212) -/

/-- `RD_CNT`: bit 31 as it stands. -/
def execRdCnt (c : Chan) (s : State) : Result := .next (whenAccepted s fun s => readOut (getChan s c).cnt s)

/-- `RD_SAD`. -/
def execRdSad (c : Chan) (s : State) : Result := .next (whenAccepted s fun s => readOut (getChan s c).sad s)

/-- `RD_TMR`. -/
def execRdTmr (c : Chan) (s : State) : Result :=
  .next (whenAccepted s fun s => readOut ((getChan s c).tmr.zeroExtend 32) s)

/-- `RD_PNT`. -/
def execRdPnt (c : Chan) (s : State) : Result :=
  .next (whenAccepted s fun s => readOut ((getChan s c).pnt.zeroExtend 32) s)

/-- `RD_LEN`. -/
def execRdLen (c : Chan) (s : State) : Result := .next (whenAccepted s fun s => readOut (getChan s c).len s)

/-- `RD_MASTER`. -/
def execRdMaster (s : State) : Result := .next (whenAccepted s fun s => readOut (s.master.zeroExtend 32) s)

/-- `RD_BIAS`. -/
def execRdBias (s : State) : Result := .next (whenAccepted s fun s => readOut (s.bias.zeroExtend 32) s)

/-! ### Reserved codes and the reload steps -/

/-- A code that names no operation: no state changes but the fault record (30_encoding.md R89, 60_exceptions.md R231). -/
def execReservedFx (code : Byte) (s : State) : Result :=
  .next (whenAccepted s (raiseFault (.cmdReserved code)))

/-- `RELOAD` (R203). -/
def execReload (c : Chan) (s : State) : Result := .next (reloadChan c s)

/-- `START.ADPCM` (R205). -/
def execStartAdpcm (c : Chan) (s : State) : Result := .next (loadHeader c s)

end Sys2Proof.Machine
end

