-- ==== Sys2Proof/Machine/Adpcm.lean ====
section
/-! DEFINITION. The ADPCM decoder and its loop-state cache (41_adpcm.md). -/

namespace Sys2Proof.Machine

/-! ### Shared operations -/

/-- One decode step with code `n` (R135 to R139): the delta from the index before its update, the accumulator, the index,
the selector, and the pointer once a byte is complete. -/
def decodeStep (n : BitVec 4) (c : Chan) (s : State) : State :=
  let ch := getChan s c
  let delta : Int := nibbleDelta (stepSize s.params ch.idx) n
  let sum : Int := if n.getLsbD 3 then ch.acc.toInt - delta else ch.acc.toInt + delta
  setChan s c
    { ch with
      acc := BitVec.ofInt 17 (clamp sum accMin accMax)
      idx := BitVec.ofInt 7 (clamp (ch.idx.toNat + indexChange s.params n) 0 idxMax)
      nsel := !ch.nsel
      ptr := if ch.nsel then ch.ptr + 1 else ch.ptr }

/-- `SNAP.CAPTURE`: the snapshot is taken when the pointer stands on the loop start with the selector at 0 (R133). -/
def captureSnap (c : Chan) (s : State) : State :=
  let ch := getChan s c
  if ch.ptr = loopStart ch ∧ ch.nsel = false then setChan s c { ch with snapAcc := ch.acc, snapIdx := ch.idx } else s

/-- `SNAP.RESTORE` (R141). -/
def restoreSnap (c : Chan) (s : State) : State :=
  let ch := getChan s c
  setChan s c { ch with acc := ch.snapAcc, idx := ch.snapIdx, nsel := false }

/-- `ADV.ADPCM(c)`: capture, fetch, decode (R140). -/
def advanceAdpcm (c : Chan) (s : State) : State :=
  let s1 := captureSnap c s
  let ch := getChan s1 c
  let r := readMem ch.ptr 1 s1
  decodeStep (selectNibble s1.params.highNibbleFirst ch.nsel r.1) c r.2

/-! ### The sixteen codes (R135) -/

/-- `NIB.0`: `t>>3` and no further term, add, index -1. -/
def execNib0 (c : Chan) (s : State) : Result := .next (decodeStep 0x0 c s)

/-- `NIB.1`: `t>>3` and `t>>2`, add, index -1. -/
def execNib1 (c : Chan) (s : State) : Result := .next (decodeStep 0x1 c s)

/-- `NIB.2`: `t>>3` and `t>>1`, add, index -1. -/
def execNib2 (c : Chan) (s : State) : Result := .next (decodeStep 0x2 c s)

/-- `NIB.3`: `t>>3` and `t>>2`, `t>>1`, add, index -1. -/
def execNib3 (c : Chan) (s : State) : Result := .next (decodeStep 0x3 c s)

/-- `NIB.4`: `t>>3` and `t`, add, index +2. -/
def execNib4 (c : Chan) (s : State) : Result := .next (decodeStep 0x4 c s)

/-- `NIB.5`: `t>>3` and `t>>2`, `t`, add, index +4. -/
def execNib5 (c : Chan) (s : State) : Result := .next (decodeStep 0x5 c s)

/-- `NIB.6`: `t>>3` and `t>>1`, `t`, add, index +6. -/
def execNib6 (c : Chan) (s : State) : Result := .next (decodeStep 0x6 c s)

/-- `NIB.7`: `t>>3` and `t>>2`, `t>>1`, `t`, add, index +8. -/
def execNib7 (c : Chan) (s : State) : Result := .next (decodeStep 0x7 c s)

/-- `NIB.8`: `t>>3` and no further term, subtract, index -1. -/
def execNib8 (c : Chan) (s : State) : Result := .next (decodeStep 0x8 c s)

/-- `NIB.9`: `t>>3` and `t>>2`, subtract, index -1. -/
def execNib9 (c : Chan) (s : State) : Result := .next (decodeStep 0x9 c s)

/-- `NIB.A`: `t>>3` and `t>>1`, subtract, index -1. -/
def execNibA (c : Chan) (s : State) : Result := .next (decodeStep 0xA c s)

/-- `NIB.B`: `t>>3` and `t>>2`, `t>>1`, subtract, index -1. -/
def execNibB (c : Chan) (s : State) : Result := .next (decodeStep 0xB c s)

/-- `NIB.C`: `t>>3` and `t`, subtract, index +2. -/
def execNibC (c : Chan) (s : State) : Result := .next (decodeStep 0xC c s)

/-- `NIB.D`: `t>>3` and `t>>2`, `t`, subtract, index +4. -/
def execNibD (c : Chan) (s : State) : Result := .next (decodeStep 0xD c s)

/-- `NIB.E`: `t>>3` and `t>>1`, `t`, subtract, index +6. -/
def execNibE (c : Chan) (s : State) : Result := .next (decodeStep 0xE c s)

/-- `NIB.F`: `t>>3` and `t>>2`, `t>>1`, `t`, subtract, index +8. -/
def execNibF (c : Chan) (s : State) : Result := .next (decodeStep 0xF c s)

/-! ### The advance and the cache -/

/-- `ADV.ADPCM` (R140). -/
def execAdvAdpcm (c : Chan) (s : State) : Result := .next (advanceAdpcm c s)

/-- `SNAP.CAPTURE` (R133). -/
def execSnapCapture (c : Chan) (s : State) : Result := .next (captureSnap c s)

/-- `SNAP.RESTORE` (R141). -/
def execSnapRestore (c : Chan) (s : State) : Result := .next (restoreSnap c s)

end Sys2Proof.Machine
end

