-- ==== Sys2Proof/Machine/Channel.lean ====
section
/-! DEFINITION. The channel synthesis engine (40_channel_engine.md): raw samples, the timer with its overflow loop, the
advance of each format, the end of data, and what the values of the `FORMAT` and `REPEAT` fields make a channel do. -/

namespace Sys2Proof.Machine

/-! ### Raw samples: the value, and the state after the read if there is one -/

/-- `RAW.PCM8` (R101). -/
def rawPcm8 (c : Chan) (s : State) : Int × State :=
  let r := readMem (getChan s c).ptr 1 s
  (sext8 r.1 * 256, r.2)

/-- `RAW.PCM16` (R102). -/
def rawPcm16 (c : Chan) (s : State) : Int × State :=
  let r := readMem (getChan s c).ptr 2 s
  (sext16 r.1, r.2)

/-- `RAW.ADPCM`: the accumulator, no fetch (R103). -/
def rawAdpcm (c : Chan) (s : State) : Int × State := ((getChan s c).acc.toInt, s)

/-- `RAW.PULSE`: low while the duty counter is below the threshold (R103). -/
def rawPulse (c : Chan) (s : State) : Int × State :=
  let ch := getChan s c
  (if ch.dutyc.toNat < dutyThreshold s.params ch.cnt then psgLo else psgHi, s)

/-- `RAW.NOISE`: low while the polarity bit is set (R103). -/
def rawNoise (c : Chan) (s : State) : Int × State :=
  (if polarity (getChan s c).lfsr then psgLo else psgHi, s)

/-- `RAW.NONE` (R103). -/
def rawNone (_c : Chan) (s : State) : Int × State := (0, s)

/-- `RAW(c, fmt)` (R100). -/
def rawSample (fmt : Format) (c : Chan) (s : State) : Int × State :=
  match fmt with
  | .pcm8 => rawPcm8 c s
  | .pcm16 => rawPcm16 c s
  | .adpcm => rawAdpcm c s
  | .psg =>
    match genOf s.params c with
    | .pulse => rawPulse c s
    | .noise => rawNoise c s
    | .silent => rawNone c s

/-! ### Advances -/

/-- The pointer moves by a sample of `width` bytes, mod 2^32 (R107). -/
def advancePointer (width : Word) (c : Chan) (s : State) : State :=
  let ch := getChan s c
  setChan s c { ch with ptr := ch.ptr + width }

/-- `ADV.PULSE`: the duty counter counts modulo 8 (R108). -/
def advancePulse (c : Chan) (s : State) : State := setDuty c ((getChan s c).dutyc + 1) s

/-- One step of the noise register with the tap mask `LFSR_TAP` (R109). -/
def lfsrStep (tap x : Half) : Half :=
  let y := x &&& 0x7FFF
  if y.getLsbD 0 then 0x8000 ||| ((y >>> 1) ^^^ tap) else y >>> 1

/-- `ADV.NOISE` (R109). -/
def advanceNoise (c : Chan) (s : State) : State := setLfsr c (lfsrStep s.params.lfsrTap (getChan s c).lfsr) s

/-- `ADV.NONE`: no state changes (R111). -/
def advanceNone (_c : Chan) (s : State) : State := s

/-- `ADV(c, fmt)` (R105). -/
def advance (fmt : Format) (c : Chan) (s : State) : State :=
  match fmt with
  | .pcm8 => advancePointer 1 c s
  | .pcm16 => advancePointer 2 c s
  | .adpcm => advanceAdpcm c s
  | .psg =>
    match genOf s.params c with
    | .pulse => advancePulse c s
    | .noise => advanceNoise c s
    | .silent => advanceNone c s

/-! ### End of data (R112) -/

/-- The loop arm: the pointer to the loop start and, for ADPCM, the snapshot restored. -/
def wrapToLoop (fmt : Format) (c : Chan) (s : State) : State :=
  let ch := getChan s c
  let s1 := setChan s c { ch with ptr := loopStart ch }
  match fmt with
  | .adpcm => restoreSnap c s1
  | .pcm8 => s1
  | .pcm16 => s1
  | .psg => s1

/-- The other arm: `CNT[c][31] <- 0`. -/
def stopChan (c : Chan) (s : State) : State :=
  let ch := getChan s c
  setChan s c { ch with cnt := clearEnable ch.cnt }

/-- Loop modes manual and reserved at the end: they stop the channel if `MANUAL_STOPS` (R112, 00_scope.md R7); with it
false the channel plays on (92_eei_decisions.md D16). -/
def stopIfManualStops (c : Chan) (s : State) : State := if s.params.manualStops then stopChan c s else s

/-- What the end of data does in each loop mode. -/
def atEnd (fmt : Format) (c : Chan) (s : State) : State :=
  match repeatOf s.params (getChan s c).cnt with
  | .manual => stopIfManualStops c s
  | .loop => wrapToLoop fmt c s
  | .oneshot => stopChan c s
  | .reserved => stopIfManualStops c s

/-- `END(c, fmt)`: equality of 32-bit addresses, after every advance; none for format 3. -/
def endOfData (fmt : Format) (c : Chan) (s : State) : State :=
  match fmt with
  | .psg => s
  | .pcm8 | .pcm16 | .adpcm =>
    let ch := getChan s c
    if ch.ptr = endAddr ch then atEnd fmt c s else s

/-! ### The timer -/

/-- The overflow loop (R105): reload by addition, the carry is the next overflow; left when the end of data has cleared
the enable bit. At most `passes` passes; `timerPasses` is never too few (log entry 24). -/
def overflowLoop (fmt : Format) (c : Chan) (passes : Nat) (s : State) : State :=
  match passes with
  | 0 => s
  | passes + 1 =>
    let ch := getChan s c
    let sum := timerAdd ch.tcnt ch.tmr
    let s1 := endOfData fmt c (advance fmt c (setChan s c { ch with tcnt := sum.1 }))
    if sum.2 && cntEnabled (getChan s1 c).cnt then overflowLoop fmt c passes s1 else s1

/-- `TIMER(c, fmt)`: the increment (R104), then the loop if it wrapped (R105). -/
def timerStep (fmt : Format) (c : Chan) (s : State) : State :=
  let ch := getChan s c
  let sum := timerAdd ch.tcnt tickInc
  let s1 := setChan s c { ch with tcnt := sum.1 }
  if sum.2 then overflowLoop fmt c timerPasses s1 else s1

/-- What a channel of a format does in a TICK before the mixer: the raw sample first, then the timer (R100). -/
def channelWork (fmt : Format) (c : Chan) (s : State) : Int × State :=
  let r := rawSample fmt c s
  (r.1, timerStep fmt c r.2)

/-- A raw sample put into its latch (log entry 14). -/
def latchRaw (r : Int × State) : State := setDp r.2 { r.2.dp with raw := r.1 }

/-! ### The rows -/

/-- `FORMAT.PCM8`: the channel's work in a TICK while its field holds 0 (R101, R104, R105, R107, R112). -/
def execFormatPcm8 (c : Chan) (s : State) : Result := .next (latchRaw (channelWork .pcm8 c s))

/-- `FORMAT.PCM16` (R102, R107). -/
def execFormatPcm16 (c : Chan) (s : State) : Result := .next (latchRaw (channelWork .pcm16 c s))

/-- `FORMAT.ADPCM` (R103, R140). -/
def execFormatAdpcm (c : Chan) (s : State) : Result := .next (latchRaw (channelWork .adpcm c s))

/-- `FORMAT.PSG` (R103, R108, R109, R111). -/
def execFormatPsg (c : Chan) (s : State) : Result := .next (latchRaw (channelWork .psg c s))

/-- `REPEAT.MANUAL`: the end of data clears the enable bit (R112). -/
def execRepeatManual (c : Chan) (s : State) : Result := .next (stopIfManualStops c s)

/-- `REPEAT.LOOP`: the end of data wraps to the loop start; ADPCM restores the snapshot (R112, 41_adpcm.md R141). -/
def execRepeatLoop (c : Chan) (s : State) : Result := .next (wrapToLoop (formatOf s.params (getChan s c).cnt) c s)

/-- `REPEAT.ONESHOT` (R112). -/
def execRepeatOneshot (c : Chan) (s : State) : Result := .next (stopChan c s)

/-- `REPEAT.RESERVED`: acts as one-shot (R71, R112). -/
def execRepeatReserved (c : Chan) (s : State) : Result := .next (stopIfManualStops c s)

/-- `RAW.PCM8` (R101). -/
def execRawPcm8 (c : Chan) (s : State) : Result := .next (latchRaw (rawPcm8 c s))

/-- `RAW.PCM16` (R102). -/
def execRawPcm16 (c : Chan) (s : State) : Result := .next (latchRaw (rawPcm16 c s))

/-- `RAW.ADPCM` (R103). -/
def execRawAdpcm (c : Chan) (s : State) : Result := .next (latchRaw (rawAdpcm c s))

/-- `RAW.PULSE` on a channel that owns that (R103). -/
def execRawPulse (c : Chan) (s : State) : Result :=
  .next (whenOwner .pulse c s fun s => latchRaw (rawPulse c s))

/-- `RAW.NOISE` on a channel that owns that (R103). -/
def execRawNoise (c : Chan) (s : State) : Result :=
  .next (whenOwner .noise c s fun s => latchRaw (rawNoise c s))

/-- `RAW.NONE` on a channel that owns that (R103). -/
def execRawNone (c : Chan) (s : State) : Result :=
  .next (whenOwner .silent c s fun s => latchRaw (rawNone c s))

/-- `TIMER` of a channel in the format its control register holds (R104, R105). -/
def execTimer (c : Chan) (s : State) : Result := .next (timerStep (formatOf s.params (getChan s c).cnt) c s)

/-- `ADV.PCM8` (R107). -/
def execAdvPcm8 (c : Chan) (s : State) : Result := .next (advancePointer 1 c s)

/-- `ADV.PCM16` (R107). -/
def execAdvPcm16 (c : Chan) (s : State) : Result := .next (advancePointer 2 c s)

/-- `ADV.PULSE` (R108). -/
def execAdvPulse (c : Chan) (s : State) : Result := .next (whenOwner .pulse c s (advancePulse c))

/-- `ADV.NOISE` (R109). -/
def execAdvNoise (c : Chan) (s : State) : Result := .next (whenOwner .noise c s (advanceNoise c))

/-- `ADV.NONE` (R111). -/
def execAdvNone (c : Chan) (s : State) : Result := .next (whenOwner .silent c s (advanceNone c))

/-- `END` of a channel in the format its control register holds (R112). -/
def execEndCheck (c : Chan) (s : State) : Result := .next (endOfData (formatOf s.params (getChan s c).cnt) c s)

end Sys2Proof.Machine
end

