-- ==== Sys2Proof/Machine/Mixer.lean ====
section
/-! DEFINITION. The volume and pan blender, the master mixer and the output stage (42_volume_pan_mixer.md): pure functions
of the raw sample and the registers, on unbounded integers (R153, R161). `x / 2^n` on an integer is the floor, the
arithmetic shift of 00_scope.md R12. -/

namespace Sys2Proof.Machine

/-! ### The functions -/

/-- `VOLUME`: the sample with 11 fractional bits (R150). -/
def scaleVolume (p : Params) (cnt : Word) (raw : Int) : Int :=
  let s4 := raw * 2 ^ (4 - divShift p cnt)
  s4 * 2 ^ 7 * volFactor p cnt / 128

/-- `PAN`, left (R152). -/
def panLeft (p : Params) (cnt : Word) (s11 : Int) : Int := s11 * 2 ^ 7 * (128 - panFactor p cnt) / 128 / 2 ^ 10

/-- `PAN`, right (R152). -/
def panRight (p : Params) (cnt : Word) (s11 : Int) : Int := s11 * 2 ^ 7 * panFactor p cnt / 128 / 2 ^ 10

/-- `MIX.MASTER` on one side (R155). -/
def scaleMaster (p : Params) (master : Half) (sum : Int) : Int := sum * 2 ^ 13 * masterVolume p master / (128 * 64)

/-- `MIX.BIAS` on one side: the shift rounds toward minus infinity (R156). -/
def addBias (bias : Half) (m : Int) : Int := m / 2 ^ 21 + biasValue bias

/-- `MIX.CLIP` on one side (R157). -/
def clip (b : Int) : Int := clamp b outMin outMax

/-- `MIX.RECENTRE` on one side: always the constant 0x200 (R158). -/
def recentre (v : Int) : Int := (v - outCentre) * 2 ^ outShift

/-- `MIX.PACK`: right in the high half, left in the low half, each reduced to 16 bits first (R159, 30_encoding.md
R85). -/
def packFrame (oL oR : Int) : Frame := BitVec.ofInt 16 oR ++ BitVec.ofInt 16 oL

/-- One side from the sum to the output sample (R155 to R158). -/
def outputSide (p : Params) (master bias : Half) (sum : Int) : Int :=
  recentre (clip (addBias bias (scaleMaster p master sum)))

/-- `OUTPUT(sumL, sumR)` (40_channel_engine.md R100). -/
def outputFrame (p : Params) (master bias : Half) (sumL sumR : Int) : Frame :=
  packFrame (outputSide p master bias sumL) (outputSide p master bias sumR)

/-! ### The rows: operands from the latches, results into the latches (log entry 14) -/

/-- `VOLUME` (R150). -/
def execVolume (c : Chan) (s : State) : Result :=
  .next (setDp s { s.dp with s11 := scaleVolume s.params (getChan s c).cnt s.dp.raw })

/-- `PAN` (R152). -/
def execPan (c : Chan) (s : State) : Result :=
  let cnt := (getChan s c).cnt
  .next (setDp s { s.dp with l := panLeft s.params cnt s.dp.s11, r := panRight s.params cnt s.dp.s11 })

/-- `MIX.MASTER` (R155). -/
def execMixMaster (s : State) : Result :=
  .next (setDp s { s.dp with mL := scaleMaster s.params s.master s.dp.sumL, mR := scaleMaster s.params s.master s.dp.sumR })

/-- `MIX.BIAS` (R156). -/
def execMixBias (s : State) : Result :=
  .next (setDp s { s.dp with bL := addBias s.bias s.dp.mL, bR := addBias s.bias s.dp.mR })

/-- `MIX.CLIP` (R157). -/
def execMixClip (s : State) : Result :=
  .next (setDp s { s.dp with vL := clip s.dp.bL, vR := clip s.dp.bR })

/-- `MIX.RECENTRE` (R158). -/
def execMixRecentre (s : State) : Result :=
  .next (setDp s { s.dp with oL := recentre s.dp.vL, oR := recentre s.dp.vR })

/-- `MIX.PACK` (R159). -/
def execMixPack (s : State) : Result :=
  .next (setDp s { s.dp with frame := packFrame s.dp.oL s.dp.oR })

end Sys2Proof.Machine
end

