-- ==== Sys2Proof/Machine/Synchronizer.lean ====
section
/-! DEFINITION. The double-buffer synchronizer (43_synchronizer.md): push, swap, the producer's stall, and the consumer's
request. A step that is not enabled does not happen: its operation leaves the state as it is (log entry 16). -/

namespace Sys2Proof.Machine

/-! ### Buffers -/

/-- `BUF[b]` (10_state.md R30). -/
def getBuf (s : State) (b : Bool) : List Frame := if b then s.buf1 else s.buf0

/-- The contents of buffer `b`. -/
def setBuf (s : State) (b : Bool) (frames : List Frame) : State :=
  if b then { s with buf1 := frames } else { s with buf0 := frames }

/-- `BUF[b][i]`; beyond the buffer's end, which no reachable state reads, a free value (log entry 12). -/
def readFrame (s : State) (b : Bool) (i : Nat) : Frame :=
  match (getBuf s b)[i]? with
  | some f => f
  | none => Config.absentFrame b i

/-- `BUF[b][i] <- f`; beyond the buffer's end, which no reachable state writes, nothing is stored (log entry 12). -/
def writeFrame (s : State) (b : Bool) (i : Nat) (f : Frame) : State := setBuf s b ((getBuf s b).set i f)

/-- `U(b, 0)` to `U(b, count - 1)` of resize number `draw`: free values (R179; log entry 11). -/
def drawnFrames (draw : Nat) (b : Bool) (count : Nat) : List Frame :=
  (List.range count).map fun i => Config.drawnFrame draw b i

/-! ### Producer side -/

/-- `SWAP` (R174): no frame moves. -/
def swapBuffers (s : State) : State :=
  { s with wsel := !s.wsel, ready := true, wcur := 0, swapPending := false }

/-- `SWAP.REQ` (R173): `limit_rate` is sampled here and nowhere else. -/
def requestSwap (s : State) : State :=
  if s.limitRate && s.ready then { s with swapPending := true } else swapBuffers s

/-- `PUSH(frame)` (R171); with `CAP = 0` the frame is dropped (R172). -/
def pushFrame (f : Frame) (s : State) : State :=
  if s.cap = 0 then s
  else
    let s1 := writeFrame s s.wsel s.wcur f
    let s2 := { s1 with wcur := s1.wcur + 1 }
    if s2.wcur = s2.cap then requestSwap s2 else s2

/-- `SWAP_RELEASE` (R176): enabled exactly when `SWAP_PENDING = 1` and `READY = 0`. -/
def releaseSwap (s : State) : State := if s.swapPending && !s.ready then swapBuffers s else s

/-! ### Consumer side -/

/-- The new buffers of a resize (R179): `READY` and `WSEL` stay. -/
def resizeTo (count : Word) (s : State) : State :=
  { s with
    cap := count.toNat
    wcur := 0
    buf0 := drawnFrames s.draws false count.toNat
    buf1 := drawnFrames s.draws true count.toNat
    draws := s.draws + 1 }

/-- `RESIZE(count)` (R179): a race with a pending swap is raised instead. -/
def resizeOrRace (count : Word) (s : State) : State :=
  if s.swapPending then raiseFault (.resizeRace count) s else resizeTo count s

/-- The request is accepted (last line of R178). -/
def beginWait (count : Word) (s : State) : State := { s with reqCount := count, reqPhase := .waiting }

/-- `REQ.START(count)` in phase idle (R178), the checks in the order of 60_exceptions.md R234; a step that raises does not
happen. -/
def startRequest (count : Word) (s : State) : State :=
  if count = 0 then raiseFault (.reqZero count) s
  else if s.params.bufMax < count.toNat then raiseFault (.alloc count) s
  else if count.toNat = s.cap then beginWait count s
  else if s.swapPending then raiseFault (.resizeRace count) s
  else beginWait count (resizeTo count s)

/-- A request at the `req` port: one at a time (R178); it waits at the port otherwise. -/
def whenIdle (s : State) (run : State → State) : State :=
  match s.reqPhase with
  | .idle => run s
  | .waiting => s
  | .expired => s

/-- Deliver frames on `req_data`, clear `READY`, end the request (R181, R183). -/
def deliver (frames : List Frame) (s : State) : State :=
  emit (.reqData frames) { s with ready := false, reqPhase := .idle }

/-- The first `REQ_COUNT` frames of the ready buffer, in order (R181). -/
def readyFrames (s : State) : List Frame := (List.range s.reqCount.toNat).map fun i => readFrame s (!s.wsel) i

/-- The last of them, `REQ_COUNT` times (R183). -/
def repeatedFrames (s : State) : List Frame :=
  List.replicate s.reqCount.toNat (readFrame s (!s.wsel) (s.reqCount.toNat - 1))

/-- `REQ.TAKE` (R181): enabled when waiting with `READY = 1`. -/
def takeFrames (s : State) : State :=
  match s.reqPhase with
  | .waiting => if s.ready then deliver (readyFrames s) s else s
  | .idle => s
  | .expired => s

/-- `REQ.EXPIRE` (R182): enabled when waiting with `READY = 0`. -/
def expireWait (s : State) : State :=
  match s.reqPhase with
  | .waiting => if s.ready then s else { s with reqPhase := .expired }
  | .idle => s
  | .expired => s

/-- `REQ.FALLBACK` (R183): enabled when expired. -/
def fallBack (s : State) : State :=
  match s.reqPhase with
  | .expired => deliver (repeatedFrames s) s
  | .idle => s
  | .waiting => s

/-! ### The rows -/

/-- `PUSH` (R171). -/
def execPush (frame : Frame) (s : State) : Result := .next (pushFrame frame s)

/-- `SWAP.REQ` (R173). -/
def execSwapReq (s : State) : Result := .next (requestSwap s)

/-- `SWAP` (R174). -/
def execSwap (s : State) : Result := .next (swapBuffers s)

/-- `SWAP_RELEASE` (R176). -/
def execSwapRelease (s : State) : Result := .next (releaseSwap s)

/-- `REQ count`: the port hands the request to its first step; the further steps are the consumer's turns (R178 to R184;
log entry 21). -/
def execReq (count : Word) (s : State) : Result := .next (whenIdle s (startRequest count))

/-- `REQ.START` (R178). -/
def execReqStart (count : Word) (s : State) : Result := .next (whenIdle s (startRequest count))

/-- `RESIZE` (R179). -/
def execResize (count : Word) (s : State) : Result := .next (resizeOrRace count s)

/-- `REQ.TAKE` (R181). -/
def execReqTake (s : State) : Result := .next (takeFrames s)

/-- `REQ.EXPIRE` (R182). -/
def execReqExpire (s : State) : Result := .next (expireWait s)

/-- `REQ.FALLBACK` (R183). -/
def execReqFallback (s : State) : Result := .next (fallBack s)

end Sys2Proof.Machine
end

