-- ==== Sys2Proof/Machine/Tick.lean ====
section
/-! DEFINITION. `TICK` (40_channel_engine.md R100): one output sample. And `RESET` (70_reset_and_hazards.md R260). -/

namespace Sys2Proof.Machine

/-- The state and the two running sums of a TICK (R100, 42_volume_pan_mixer.md R153). -/
structure TickState where
  st : State
  sumL : Int
  sumR : Int
deriving DecidableEq, Repr

/-- The channels in the order of a TICK (R100, 20_memory.md R59). -/
def allChans : List Chan := [0, 1, 2, 3, 4, 5, 6, 7, 8, 9, 10, 11, 12, 13, 14, 15]

/-- One channel's part of a TICK: none when it is disabled (R106); else its work, then volume, pan and the sums. The
fields of `CNT[c]` that volume and pan read are those after the timer step (R100). -/
def tickChan (t : TickState) (c : Chan) : TickState :=
  let cnt := (getChan t.st c).cnt
  if cntEnabled cnt then
    let p := t.st.params
    let w := channelWork (formatOf p cnt) c t.st
    let cnt' := (getChan w.2 c).cnt
    let s11 := scaleVolume p cnt' w.1
    { st := w.2, sumL := t.sumL + panLeft p cnt' s11, sumR := t.sumR + panRight p cnt' s11 }
  else t

/-- All channels, from sums of zero. -/
def tickChans (s : State) : TickState := allChans.foldl tickChan { st := s, sumL := 0, sumR := 0 }

/-- `TICK` once accepted: the channels, the output stage, one `PUSH` (R100; 90_conflicts.md C16). -/
def runTick (s : State) : State :=
  let t := tickChans s
  pushFrame (outputFrame t.st.params t.st.master t.st.bias t.sumL t.sumR) t.st

/-- `TICK` (R100). -/
def execTick (s : State) : Result := .next (whenAccepted s runTick)

/-- `RESET`: every state element of the block takes the value of 10_state.md R35, whatever the block was doing; what lies
outside the block (memory and the stores under way, levels, parameters, what waits at the ports, the turns) and the
model's history stay (log entry 19). The contents of the buffers, `CAP_RESET` frames each, are unspecified (R261): free
values, drawn as at a resize (log entry 11). -/
def resetBlock (s : State) : State :=
  { State.reset with
    chans := Vector.replicate 16 (Channel.reset s.params.lfsrInit)
    cap := s.params.capReset
    buf0 := drawnFrames s.draws false s.params.capReset
    buf1 := drawnFrames s.draws true s.params.capReset
    limitRate := s.limitRate
    mem := s.mem
    busStores := s.busStores
    params := s.params
    cmdQ := s.cmdQ
    reqQ := s.reqQ
    turns := s.turns
    history := s.history
    draws := s.draws + 1 }

/-- `RESET` (R260). -/
def execReset (s : State) : Result := .next (resetBlock s)

end Sys2Proof.Machine
end

