-- ==== Sys2Proof/Machine/Dispatch.lean ====
section
/-! DEFINITION. One arm per operation, each one call of its meaning. -/

namespace Sys2Proof.Machine

def exec (i : Instr) (s : State) : Host.Outcome State Fault Refusal :=
  match i with
  | .wrCnt c mask value => Sys2Proof.Machine.execWrCnt c mask value s
  | .wrSad c mask value => Sys2Proof.Machine.execWrSad c mask value s
  | .wrTmr c mask value => Sys2Proof.Machine.execWrTmr c mask value s
  | .wrPnt c mask value => Sys2Proof.Machine.execWrPnt c mask value s
  | .wrLen c mask value => Sys2Proof.Machine.execWrLen c mask value s
  | .wrMaster mask value => Sys2Proof.Machine.execWrMaster mask value s
  | .wrBias mask value => Sys2Proof.Machine.execWrBias mask value s
  | .tick => Sys2Proof.Machine.execTick s
  | .rdCnt c => Sys2Proof.Machine.execRdCnt c s
  | .rdSad c => Sys2Proof.Machine.execRdSad c s
  | .rdTmr c => Sys2Proof.Machine.execRdTmr c s
  | .rdPnt c => Sys2Proof.Machine.execRdPnt c s
  | .rdLen c => Sys2Proof.Machine.execRdLen c s
  | .rdMaster => Sys2Proof.Machine.execRdMaster s
  | .rdBias => Sys2Proof.Machine.execRdBias s
  | .reservedFx code => Sys2Proof.Machine.execReservedFx code s
  | .req count => Sys2Proof.Machine.execReq count s
  | .nib0 c => Sys2Proof.Machine.execNib0 c s
  | .nib1 c => Sys2Proof.Machine.execNib1 c s
  | .nib2 c => Sys2Proof.Machine.execNib2 c s
  | .nib3 c => Sys2Proof.Machine.execNib3 c s
  | .nib4 c => Sys2Proof.Machine.execNib4 c s
  | .nib5 c => Sys2Proof.Machine.execNib5 c s
  | .nib6 c => Sys2Proof.Machine.execNib6 c s
  | .nib7 c => Sys2Proof.Machine.execNib7 c s
  | .nib8 c => Sys2Proof.Machine.execNib8 c s
  | .nib9 c => Sys2Proof.Machine.execNib9 c s
  | .nibA c => Sys2Proof.Machine.execNibA c s
  | .nibB c => Sys2Proof.Machine.execNibB c s
  | .nibC c => Sys2Proof.Machine.execNibC c s
  | .nibD c => Sys2Proof.Machine.execNibD c s
  | .nibE c => Sys2Proof.Machine.execNibE c s
  | .nibF c => Sys2Proof.Machine.execNibF c s
  | .formatPcm8 c => Sys2Proof.Machine.execFormatPcm8 c s
  | .formatPcm16 c => Sys2Proof.Machine.execFormatPcm16 c s
  | .formatAdpcm c => Sys2Proof.Machine.execFormatAdpcm c s
  | .formatPsg c => Sys2Proof.Machine.execFormatPsg c s
  | .repeatManual c => Sys2Proof.Machine.execRepeatManual c s
  | .repeatLoop c => Sys2Proof.Machine.execRepeatLoop c s
  | .repeatOneshot c => Sys2Proof.Machine.execRepeatOneshot c s
  | .repeatReserved c => Sys2Proof.Machine.execRepeatReserved c s
  | .rawPcm8 c => Sys2Proof.Machine.execRawPcm8 c s
  | .rawPcm16 c => Sys2Proof.Machine.execRawPcm16 c s
  | .rawAdpcm c => Sys2Proof.Machine.execRawAdpcm c s
  | .rawPulse c => Sys2Proof.Machine.execRawPulse c s
  | .rawNoise c => Sys2Proof.Machine.execRawNoise c s
  | .rawNone c => Sys2Proof.Machine.execRawNone c s
  | .timer c => Sys2Proof.Machine.execTimer c s
  | .advPcm8 c => Sys2Proof.Machine.execAdvPcm8 c s
  | .advPcm16 c => Sys2Proof.Machine.execAdvPcm16 c s
  | .advPulse c => Sys2Proof.Machine.execAdvPulse c s
  | .advNoise c => Sys2Proof.Machine.execAdvNoise c s
  | .advAdpcm c => Sys2Proof.Machine.execAdvAdpcm c s
  | .advNone c => Sys2Proof.Machine.execAdvNone c s
  | .endCheck c => Sys2Proof.Machine.execEndCheck c s
  | .snapCapture c => Sys2Proof.Machine.execSnapCapture c s
  | .snapRestore c => Sys2Proof.Machine.execSnapRestore c s
  | .volume c => Sys2Proof.Machine.execVolume c s
  | .pan c => Sys2Proof.Machine.execPan c s
  | .mixMaster => Sys2Proof.Machine.execMixMaster s
  | .mixBias => Sys2Proof.Machine.execMixBias s
  | .mixClip => Sys2Proof.Machine.execMixClip s
  | .mixRecentre => Sys2Proof.Machine.execMixRecentre s
  | .mixPack => Sys2Proof.Machine.execMixPack s
  | .push frame => Sys2Proof.Machine.execPush frame s
  | .swapReq => Sys2Proof.Machine.execSwapReq s
  | .swap => Sys2Proof.Machine.execSwap s
  | .swapRelease => Sys2Proof.Machine.execSwapRelease s
  | .reqStart count => Sys2Proof.Machine.execReqStart count s
  | .resize count => Sys2Proof.Machine.execResize count s
  | .reqTake => Sys2Proof.Machine.execReqTake s
  | .reqExpire => Sys2Proof.Machine.execReqExpire s
  | .reqFallback => Sys2Proof.Machine.execReqFallback s
  | .reload c => Sys2Proof.Machine.execReload c s
  | .startAdpcm c => Sys2Proof.Machine.execStartAdpcm c s
  | .reset => Sys2Proof.Machine.execReset s

end Sys2Proof.Machine
end

