-- ==== Sys2Proof/Machine/Scheduler.lean ====
section
/-! DEFINITION. What an agent does in its turn (00_scope.md R10), and where an operation is fetched from: the head of the
queue at its port. -/

namespace Sys2Proof.Machine

/-- The producer's turn. Stalled, it accepts no command and can only release the swap (43_synchronizer.md R175, R176);
otherwise it takes the next command of the `cmd` port, if there is one. -/
def producerTurn (s : State) : Result :=
  if s.swapPending then exec .swapRelease s
  else
    match s.cmdQ with
    | [] => .next s
    | w :: rest => exec (decode (.command w)) { s with cmdQ := rest }

/-- The consumer's turn: the next request when idle; the take, or with the deadline passed the expiry, when waiting; the
fallback when expired (43_synchronizer.md R178 to R183). A poll that finds `READY = 0` before the deadline changes
nothing (R180). -/
def consumerTurn (deadlinePassed : Bool) (s : State) : Result :=
  match s.reqPhase with
  | .idle =>
    match s.reqQ with
    | [] => .next s
    | n :: rest => exec (decode (.request n)) { s with reqQ := rest }
  | .waiting =>
    if s.ready then exec .reqTake s
    else if deadlinePassed then exec .reqExpire s
    else .next s
  | .expired => exec .reqFallback s

/-- A turn of one of the block's two agents: none after `FLT_RESIZE_RACE`, from where the spec gives no behaviour
(60_exceptions.md R231; log entry 17). -/
def agentTurn (run : State → Result) (s : State) : Result :=
  if s.raced then .fault .resizeRace else run s

/-- One turn. -/
def takeTurn (t : Turn) (s : State) : Result :=
  match t with
  | .producer => agentTurn producerTurn s
  | .consumer => agentTurn (consumerTurn false) s
  | .deadline => agentTurn (consumerTurn true) s
  | .limitRate level => .next { s with limitRate := level }
  | .poke addr value => .next { s with mem := memPut s.mem addr.toNat value }
  | .reset => exec .reset s

/-- Put a command before those that wait at the `cmd` port and give the producer the next turn, not stalled. -/
def offerCommand (w : BitVec 72) (s : State) : State :=
  { s with cmdQ := w :: s.cmdQ, turns := .producer :: s.turns, swapPending := false, raced := false }

/-- Put a request before those that wait at the `req` port and give the consumer the next turn, idle. -/
def offerRequest (n : Word) (s : State) : State :=
  { s with reqQ := n :: s.reqQ, turns := .consumer :: s.turns, reqPhase := .idle, raced := false }

/-- Put the bits of a row of spec/opcode_table.json at the port they belong to (see `decodeTableWord`). -/
def offerTableWord (nbits w : Nat) (s : State) : State :=
  match tablePort nbits with
  | some .cmd =>
    match commandOfBytes (bytesOfNat 9 (w % 2 ^ nbits)) with
    | .ok v => offerCommand v s
    | .error _ => s
  | some .req =>
    match requestOfBytes (bytesOfNat 4 (w % 2 ^ nbits)) with
    | .ok n => offerRequest n s
    | .error _ => s
  | none => s

end Sys2Proof.Machine
end

