-- ==== Sys2Proof/Machine/Step.lean ====
section
/-! DEFINITION. One step of the machine: the next turn. -/

namespace Sys2Proof.Machine

/-- One step: the first turn is taken off the list and taken. With no turn left the block is idle: nothing happens
(70_reset_and_hazards.md R262). -/
def step (s : State) : Host.Outcome State Fault Refusal :=
  match s.turns with
  | [] => .next s
  | t :: rest => takeTurn t { s with turns := rest }

/-- `s` with an operation of the table's bits at the port it belongs to, and its agent's turn next, so that `step`
fetches and runs exactly it (log entries 2 and 3). -/
def State.withFetchWord (s : State) (nbits w : Nat) : State := offerTableWord nbits w s

end Sys2Proof.Machine
end

