-- ==== Sys2Proof/Safety.lean ====
section
/-! DEFINITION. The terms claims are stated in: the invariant of 10_state.md R34, what a channel's work may touch (R37),
what a run is without a fault, and a TICK put together from the named sub-steps, each run as an operation of its own. -/

namespace Sys2Proof.Machine

/-! ### The invariant (10_state.md R34) -/

/-- What the invariant needs of the parameters: the noise register is not dead from the start and its step keeps it alive
(R34 item 4, stated for `LFSR_INIT = 0x7FFF` and `LFSR_TAP = 0x6000`), and the buffers can hold the capacity after
reset. -/
structure ParamsOk (p : Params) : Prop where
  init_live : p.lfsrInit &&& 0x7FFF ≠ 0
  tap_live : p.lfsrTap.getLsbD 14 = true
  capReset_le : p.capReset ≤ p.bufMax

/-- R34 items 1 to 4 for one channel: the bits outside a register's write mask are 0 (with the spec's masks the bits that
item 3 lists). -/
structure ChanInv (m : Masks) (ch : Channel) : Prop where
  idx_le : ch.idx.toNat ≤ 88
  snapIdx_le : ch.snapIdx.toNat ≤ 88
  acc_range : -0x8000 ≤ ch.acc.toInt ∧ ch.acc.toInt ≤ 0x7FFF
  snapAcc_range : -0x8000 ≤ ch.snapAcc.toInt ∧ ch.snapAcc.toInt ≤ 0x7FFF
  sad_bits : ch.sad &&& ~~~m.sad = 0
  len_bits : ch.len &&& ~~~m.len = 0
  cnt_bits : ch.cnt &&& ~~~m.cnt = 0
  lfsr_live : ch.lfsr &&& 0x7FFF ≠ 0

/-- R34 for the block; both buffers have `CAP` frames (R30); a request in progress is for `CAP` frames and not for none
(43_synchronizer.md R178); the capacity is within `BUF_MAX` (R30); sample memory has its canonical form. -/
structure BlockInv (s : State) : Prop where
  params : ParamsOk s.params
  chans : ∀ c, ChanInv s.params.masks (getChan s c)
  bias_bits : s.bias &&& ~~~s.params.masks.bias = 0
  master_bits : s.master &&& ~~~s.params.masks.master = 0
  unconfigured : s.cap = 0 → s.wcur = 0
  cursor_lt : 0 < s.cap → s.swapPending = false → s.wcur < s.cap
  pending_full : s.swapPending = true → s.wcur = s.cap ∧ 0 < s.cap
  buf0_len : s.buf0.length = s.cap
  buf1_len : s.buf1.length = s.cap
  request : s.reqPhase ≠ .idle → s.reqCount.toNat = s.cap ∧ s.reqCount ≠ 0
  cap_le : s.cap ≤ s.params.bufMax
  mem_wf : memWf s.mem = true

/-! ### Runs -/

/-- No fault has been recorded since reset: the premise of a claim about a run (92_eei_decisions.md D31). -/
def noFault (s : State) : Prop := s.fault = none ∧ s.raced = false

/-! ### What may change -/

/-- Everything outside the channels and the read port: the global registers, the synchronizer, the fault record, the
parameters and what waits at the ports (10_state.md R37, line `TICK`, up to the push). -/
structure SameButChannels (s t : State) : Prop where
  master : t.master = s.master
  bias : t.bias = s.bias
  buf0 : t.buf0 = s.buf0
  buf1 : t.buf1 = s.buf1
  wsel : t.wsel = s.wsel
  wcur : t.wcur = s.wcur
  cap : t.cap = s.cap
  ready : t.ready = s.ready
  swapPending : t.swapPending = s.swapPending
  reqPhase : t.reqPhase = s.reqPhase
  reqCount : t.reqCount = s.reqCount
  fault : t.fault = s.fault
  limitRate : t.limitRate = s.limitRate
  params : t.params = s.params
  cmdQ : t.cmdQ = s.cmdQ
  reqQ : t.reqQ = s.reqQ
  turns : t.turns = s.turns
  draws : t.draws = s.draws
  raced : t.raced = s.raced

/-- Sample memory once the stores of other masters that land before the block's next `k` reads have landed. -/
def landed (s : State) (k : Nat) : Memory := (s.busStores.take k).foldl storeAll s.mem

/-- The block has done at most `n` things at its ports, all of them reads of the `mem` port (20_memory.md R51): read number
`i` answers from the memory as the stores that landed before it left it (R60), and memory has changed by those stores
only. `new` lists the reads, the first one first. -/
def OnlyReads (n : Nat) (s t : State) : Prop :=
  ∃ new : List PortEvent, t.history = new.reverse ++ s.history ∧ new.length ≤ n ∧
    (∀ (i : Nat) (e : PortEvent), new[i]? = some e →
      ∃ a size, e = .memRead s.params.memPriv a size (memValue (landed s (i + 1)) a size)) ∧
    t.mem = landed s new.length ∧ t.busStores = s.busStores.drop new.length

/-- The registers of a channel that its work in a TICK never writes, and the one bit of `CNT` it may clear (R37); a place
for a generator that the channel does not own stays as it is. -/
structure BankKept (g : Generator) (ch ch' : Channel) : Prop where
  sad : ch'.sad = ch.sad
  tmr : ch'.tmr = ch.tmr
  pnt : ch'.pnt = ch.pnt
  len : ch'.len = ch.len
  cnt : ch'.cnt = ch.cnt ∨ ch'.cnt = ch.cnt &&& 0x7FFFFFFF
  dutyc : g ≠ .pulse → ch'.dutyc = ch.dutyc
  lfsr : g ≠ .noise → ch'.lfsr = ch.lfsr

/-- What the work of channel `c` in a TICK may touch: its own playback and decoder registers, its own enable bit, its own
generator, and the `mem` port (R37). -/
structure OnlyChannel (c : Chan) (s t : State) : Prop where
  rest : SameButChannels s t
  others : ∀ d, d ≠ c → getChan t d = getChan s d
  bank : BankKept (genOf s.params c) (getChan s c) (getChan t c)

/-! ### A TICK from its named sub-steps -/

/-- One more operation after a result. -/
def thenRun (r : Result) (i : Instr) : Result :=
  match r with
  | .next s => exec i s
  | .fault f => .fault f
  | .refused f => .refused f

/-- Operations one after another. -/
def runOps (l : List Instr) (s : State) : Result := l.foldl thenRun (.next s)

/-- `sumL <- sumL + l ; sumR <- sumR + r` on the latches (40_channel_engine.md R100). -/
def accumulate (s : State) : State :=
  setDp s { s.dp with sumL := s.dp.sumL + s.dp.l, sumR := s.dp.sumR + s.dp.r }

/-- The row of a format. -/
def formatRow (f : Format) (c : Chan) : Instr :=
  match f with
  | .pcm8 => .formatPcm8 c
  | .pcm16 => .formatPcm16 c
  | .adpcm => .formatAdpcm c
  | .psg => .formatPsg c

/-- The row of a loop mode. -/
def repeatRow (m : RepeatMode) (c : Chan) : Instr :=
  match m with
  | .manual => .repeatManual c
  | .loop => .repeatLoop c
  | .oneshot => .repeatOneshot c
  | .reserved => .repeatReserved c

/-- The advance of a format on channel `c` (40_channel_engine.md R105). -/
def advanceRow (p : Params) (f : Format) (c : Chan) : Instr :=
  match f with
  | .pcm8 => .advPcm8 c
  | .pcm16 => .advPcm16 c
  | .adpcm => .advAdpcm c
  | .psg =>
    match genOf p c with
    | .pulse => .advPulse c
    | .noise => .advNoise c
    | .silent => .advNone c

/-- The raw sample of a format on channel `c` (R100). -/
def rawRow (p : Params) (f : Format) (c : Chan) : Instr :=
  match f with
  | .pcm8 => .rawPcm8 c
  | .pcm16 => .rawPcm16 c
  | .adpcm => .rawAdpcm c
  | .psg =>
    match genOf p c with
    | .pulse => .rawPulse c
    | .noise => .rawNoise c
    | .silent => .rawNone c

/-- One channel's part of a TICK as operations: the row of its `FORMAT` value, `VOLUME`, `PAN`, and the sums. -/
def subStepsOfChan (r : Result) (c : Chan) : Result :=
  match r with
  | .next s =>
    let cnt := (getChan s c).cnt
    if cntEnabled cnt then
      match runOps [formatRow (formatOf s.params cnt) c, .volume c, .pan c] s with
      | .next t => .next (accumulate t)
      | .fault f => .fault f
      | .refused f => .refused f
    else .next s
  | .fault f => .fault f
  | .refused f => .refused f

/-- A TICK as operations: sums of zero, the channels, the five steps of the output stage, one `PUSH`. -/
def tickBySubSteps (s : State) : Result :=
  match thenRun (thenRun (thenRun (thenRun (thenRun
      (allChans.foldl subStepsOfChan (.next (setDp s { s.dp with sumL := 0, sumR := 0 })))
      .mixMaster) .mixBias) .mixClip) .mixRecentre) .mixPack with
  | .next t => exec (.push t.dp.frame) t
  | .fault f => .fault f
  | .refused f => .refused f

end Sys2Proof.Machine
end

