-- ==== Sys2Proof/Certificates/Slice0/Obligations.lean ====
section
/-! DEFINITION. The statements for the provers, from the numbered rules of spec/. -/

open Sys2Proof Sys2Proof.Machine

/-! ### Encoding -/

/-- Decoding the encoding of a well-formed operation gives the operation back, for every operand (30_encoding.md R71, R82,
R86 to R89; decision D2). -/
def Obligations.DecodeOfEncodeIsTheOperation : Prop :=
  ∀ (i : Instr) (e : Encoded), i.wf = true → encode i = some e → decode e = i

/-- Every 72-bit command word is an operation with an encoding: the code byte is kept whole, and for a write so are the
mask and the value (R86, R87). No encoding decodes to an internal step or to an ill-formed operation. -/
def Obligations.EveryCommandWordIsAnOperation : Prop :=
  (∀ w : BitVec 72, ∃ v, encode (decodeCommand w) = some (.command v) ∧ commandCode v = commandCode w ∧
    ((commandCode w).toNat ≤ 0x50 ∨ commandCode w = 0x60 → v = w)) ∧
  ∀ e : Encoded, (decode e).wf = true ∧ (decode e).isInternal = false

/-- The codes that name no operation are exactly those of 30_encoding.md R89, and each decodes to the reserved operation
with its code (decision D32). -/
def Obligations.ReservedCodesAreThoseListed : Prop :=
  ∀ w : BitVec 72,
    let op := (commandCode w).toNat / 16
    let low := (commandCode w).toNat % 16
    let listed := op = 15 ∨ ((op = 5 ∨ op = 6 ∨ op = 7 ∨ op = 13 ∨ op = 14) ∧ low ≠ 0)
    (listed → decodeCommand w = .reservedFx (commandCode w)) ∧
      ((∃ code, decodeCommand w = .reservedFx code) → listed)

/-- Words written out from 95_test_vectors.md decode to the operations they are listed with. -/
def Obligations.ListedWordsDecode : Prop :=
  decode (.command 0x00FFFFFFFF9040007F) = .wrCnt 0 0xFFFFFFFF 0x9040007F ∧
  decode (.command 0x22000000FF12345678) = .wrTmr 2 0x000000FF 0x12345678 ∧
  decode (.command 0x700000000000000000) = .tick ∧
  decode (.command 0xA20000000000000000) = .rdTmr 2 ∧
  decode (.command 0x51FFFFFFFF0000007F) = .reservedFx 0x51 ∧
  decode (.request 0x00000020) = .req 32 ∧
  decode (.nibble 1 0xB) = .nibB 1 ∧
  decode (.formatField 5 0xC840007F) = .formatAdpcm 5 ∧
  decode (.repeatField 5 0xC840007F) = .repeatLoop 5

/-- The bits of a table row, put where `step` fetches, are the operation that `step` runs next. The port layout and
`withFetchWord` are the model's choice (log entries 2 and 3). -/
def Obligations.TableWordIsFetchedAndRun : Prop :=
  ∀ (s : State) (nbits w : Nat) (i : Instr), decodeTableWord nbits w = some i →
    step (s.withFetchWord nbits w) =
      exec i (if nbits = 32 then { s with reqPhase := .idle, raced := false }
        else { s with swapPending := false, raced := false })

/-! ### The step -/

/-- On the producer's turn the next waiting command is decoded and executed (00_scope.md R10, 20_memory.md R59). The turns
and the queue are the model's form of the interleaving and the port (log entry 1). -/
def Obligations.StepRunsTheDecodedCommand : Prop :=
  ∀ (s : State) (w : BitVec 72) (rest : List (BitVec 72)) (ts : List Turn),
    s.turns = .producer :: ts → s.cmdQ = w :: rest → s.swapPending = false → s.raced = false →
      step s = exec (decode (.command w)) { s with turns := ts, cmdQ := rest }

/-- On the consumer's turn, idle, the next waiting request is decoded and begun (00_scope.md R10, 43_synchronizer.md R178;
log entries 1 and 21). -/
def Obligations.StepRunsTheDecodedRequest : Prop :=
  ∀ (s : State) (t : Turn) (n : Word) (rest : List Word) (ts : List Turn),
    (t = .consumer ∨ t = .deadline) → s.turns = t :: ts → s.reqQ = n :: rest → s.reqPhase = .idle → s.raced = false →
      step s = exec (decode (.request n)) { s with turns := ts, reqQ := rest }

/-- A stalled producer accepts no command: its turn changes nothing while `READY = 1` and is `SWAP_RELEASE` once
`READY = 0` (43_synchronizer.md R175, R176; decision D28; turns: log entry 1). -/
def Obligations.StalledProducerOnlyReleases : Prop :=
  ∀ (s : State) (ts : List Turn), s.turns = .producer :: ts → s.swapPending = true → s.raced = false →
    (s.ready = true → step s = .next { s with turns := ts }) ∧
    (s.ready = false → step s = exec .swapRelease { s with turns := ts })

/-- Inside a request the consumer's turn is the take when `READY = 1`, the expiry when the deadline has passed with
`READY = 0`, a poll that changes nothing before it, and the fallback once expired (43_synchronizer.md R180 to R183;
decision D29; turns: log entries 1 and 21). -/
def Obligations.ConsumerTurnsInsideARequest : Prop :=
  ∀ (s : State) (t : Turn) (ts : List Turn), (t = .consumer ∨ t = .deadline) → s.turns = t :: ts → s.raced = false →
    (s.reqPhase = .waiting → s.ready = true → step s = exec .reqTake { s with turns := ts }) ∧
    (s.reqPhase = .waiting → s.ready = false → t = .consumer → step s = .next { s with turns := ts }) ∧
    (s.reqPhase = .waiting → s.ready = false → t = .deadline → step s = exec .reqExpire { s with turns := ts }) ∧
    (s.reqPhase = .expired → step s = exec .reqFallback { s with turns := ts })

/-- The other turns: nothing to do, the inputs, and `rst`; and after `FLT_RESIZE_RACE` an agent's turn stops the machine
(70_reset_and_hazards.md R260, R262, 60_exceptions.md R231; the turns and the stop are the model's choice, log entries 1
and 17). -/
def Obligations.OtherTurns : Prop :=
  ∀ (s : State) (ts : List Turn),
    (s.turns = [] → step s = .next s) ∧
    (s.turns = .producer :: ts → s.cmdQ = [] → s.swapPending = false → s.raced = false →
      step s = .next { s with turns := ts }) ∧
    (∀ t, t = .consumer ∨ t = .deadline → s.turns = t :: ts → s.reqQ = [] → s.reqPhase = .idle → s.raced = false →
      step s = .next { s with turns := ts }) ∧
    (∀ l, s.turns = .limitRate l :: ts → step s = .next { s with turns := ts, limitRate := l }) ∧
    (∀ a v, s.turns = .poke a v :: ts → step s = .next { s with turns := ts, mem := memPut s.mem a.toNat v }) ∧
    (s.turns = .reset :: ts → step s = exec .reset { s with turns := ts }) ∧
    (∀ t, t = .producer ∨ t = .consumer ∨ t = .deadline → s.turns = t :: ts → s.raced = true →
      step s = .fault .resizeRace)

/-! ### Register bank (44_register_bank.md) -/

/-- `WR_TMR` and `WR_PNT` write the low 16 bits of the value under the low 16 bits of the mask inside the register's own,
and nothing else changes (R200, R207, R208; the masks are parameters, O60, decision D3). -/
def Obligations.WriteTimerAndLoopPoint : Prop :=
  ∀ (c : Chan) (m v : Word) (s : State), s.swapPending = false →
    let ch := getChan s c
    let g := s.params.masks
    let m16 : Half := m.truncate 16
    let v16 : Half := v.truncate 16
    exec (.wrTmr c m v) s = .next (setChan s c
      { ch with tmr := (ch.tmr &&& ~~~(m16 &&& g.tmr)) ||| (v16 &&& (m16 &&& g.tmr)) }) ∧
    exec (.wrPnt c m v) s = .next (setChan s c
      { ch with pnt := (ch.pnt &&& ~~~(m16 &&& g.pnt)) ||| (v16 &&& (m16 &&& g.pnt)) })

/-- `WR_SAD`, `WR_LEN` and `WR_MASTER` write under the register's own mask, and nothing else changes (R200, R206, R209,
R210; the masks are parameters, O60, decision D3). -/
def Obligations.WriteAddressLengthAndMaster : Prop :=
  ∀ (c : Chan) (m v : Word) (s : State), s.swapPending = false →
    let ch := getChan s c
    let g := s.params.masks
    let m16 : Half := m.truncate 16
    let v16 : Half := v.truncate 16
    exec (.wrSad c m v) s = .next (setChan s c
      { ch with sad := (ch.sad &&& ~~~(m &&& g.sad)) ||| (v &&& (m &&& g.sad)) }) ∧
    exec (.wrLen c m v) s = .next (setChan s c
      { ch with len := (ch.len &&& ~~~(m &&& g.len)) ||| (v &&& (m &&& g.len)) }) ∧
    exec (.wrMaster m v) s = .next
      { s with master := (s.master &&& ~~~(m16 &&& g.master)) ||| (v16 &&& (m16 &&& g.master)) }

/-- `WR_BIAS` writes the low 16 bits of the value under the mask inside the register's own (the low 10 bits, O60), and
nothing else changes (R200, R211; the mask is a parameter, decision D3). -/
def Obligations.WriteBias : Prop :=
  ∀ (m v : Word) (s : State), s.swapPending = false →
    let m16 : Half := m.truncate 16
    let v16 : Half := v.truncate 16
    let g := s.params.masks.bias
    exec (.wrBias m v) s = .next { s with bias := (s.bias &&& ~~~(m16 &&& g)) ||| (v16 &&& (m16 &&& g)) }

/-- `WR_CNT` writes the register first; a change of the stored bit 31 from 0 to 1 then runs `RELOAD` on the new register;
otherwise nothing else changes (R202; the mask is a parameter, O60, decision D3). -/
def Obligations.WriteControlWithItsEdge : Prop :=
  ∀ (c : Chan) (m v : Word) (s : State), s.swapPending = false →
    let ch := getChan s c
    let g := s.params.masks.cnt
    let new := (ch.cnt &&& ~~~(m &&& g)) ||| (v &&& (m &&& g))
    let s1 := setChan s c { ch with cnt := new }
    let edge := ch.cnt.getLsbD 31 = false ∧ new.getLsbD 31 = true
    (edge → ∃ t, exec (.reload c) s1 = .next t ∧ exec (.wrCnt c m v) s = .next t) ∧
    (¬edge → exec (.wrCnt c m v) s = .next s1)

/-- `RELOAD`: pointer and timer counter, then by the `FORMAT` field the header load, or for a channel with a generator its
duty counter to 0 or its noise register to `LFSR_INIT`, and nothing else; with `psgRestart` false the generator goes on
(R203; which channels own one and the restart are parameters, D11, D12; the field and the lists: O60). -/
def Obligations.ReloadByFormat : Prop :=
  ∀ (c : Chan) (s : State),
    let ch := getChan s c
    let fmt := formatOf s.params ch.cnt
    let g := genOf s.params c
    let ch1 : Channel := { ch with ptr := ch.sad, tcnt := ch.tmr }
    (fmt = .pcm8 ∨ fmt = .pcm16 → exec (.reload c) s = .next (setChan s c ch1)) ∧
    (fmt = .adpcm → ∃ t, exec (.startAdpcm c) (setChan s c ch1) = .next t ∧ exec (.reload c) s = .next t) ∧
    (fmt = .psg → g = .silent ∨ s.params.psgRestart = false → exec (.reload c) s = .next (setChan s c ch1)) ∧
    (fmt = .psg → g = .pulse → s.params.psgRestart = true →
      exec (.reload c) s = .next (setChan s c { ch1 with dutyc := 0 })) ∧
    (fmt = .psg → g = .noise → s.params.psgRestart = true →
      exec (.reload c) s = .next (setChan s c { ch1 with lfsr := s.params.lfsrInit }))

/-- `START.ADPCM`: one 4-byte read at `SAD[c]`, answered from memory after the stores that land before it; the accumulator
is the signed low half, not clamped, the index the next 7 bits clamped to 88, the selector 0, the pointer behind the
header; nothing else changes (R205, 30_encoding.md R80, 20_memory.md R60; D10; the stores under way: log entry 5). -/
def Obligations.HeaderLoad : Prop :=
  ∀ (c : Chan) (s : State),
    let ch := getChan s c
    let m := storeAll s.mem (s.busStores.headD [])
    let h := memValue m ch.sad 4
    let s1 : State :=
      { s with
        mem := m
        busStores := s.busStores.tail
        history := .memRead s.params.memPriv ch.sad 4 h :: s.history }
    ∃ acc idx,
      exec (.startAdpcm c) s = .next (setChan s1 c { ch with acc := acc, idx := idx, nsel := false, ptr := ch.sad + 4 }) ∧
      acc.toInt = (h.extractLsb' 0 16).toInt ∧ idx.toNat = min (h.extractLsb' 16 7).toNat 88

/-- `RD_x`: `cmd_rdata` carries the stored register, zero-extended; no state changes (R212; D33; the record of what the
port carried is the model's, log entry 18). -/
def Obligations.ReadsReturnTheStoredRegister : Prop :=
  ∀ (c : Chan) (s : State), s.swapPending = false →
    let ch := getChan s c
    let out (v : Nat) : State := { s with history := .rdata (BitVec.ofNat 32 v) :: s.history }
    exec (.rdCnt c) s = .next (out ch.cnt.toNat) ∧ exec (.rdSad c) s = .next (out ch.sad.toNat) ∧
    exec (.rdTmr c) s = .next (out ch.tmr.toNat) ∧ exec (.rdPnt c) s = .next (out ch.pnt.toNat) ∧
    exec (.rdLen c) s = .next (out ch.len.toNat) ∧ exec .rdMaster s = .next (out s.master.toNat) ∧
    exec .rdBias s = .next (out s.bias.toNat)

/-- Writing a masked value and reading it back gives `(old and not eff) or (value and eff)` with the mask inside the
register's, for every register, the control register with its edge included (R213; the masks are parameters, O60, D3). -/
def Obligations.WriteThenReadRoundTrip : Prop :=
  ∀ (c : Chan) (m v : Word) (s : State), s.swapPending = false →
    let back (wr rd : Instr) (old group : Word) : Prop :=
      ∃ t u, exec wr s = .next t ∧ exec rd t = .next u ∧
        u.history.head? = some (.rdata ((old &&& ~~~(m &&& group)) ||| (v &&& (m &&& group))))
    let ch := getChan s c
    let g := s.params.masks
    back (.wrCnt c m v) (.rdCnt c) ch.cnt g.cnt ∧
    back (.wrSad c m v) (.rdSad c) ch.sad g.sad ∧
    back (.wrTmr c m v) (.rdTmr c) (ch.tmr.zeroExtend 32) (g.tmr.zeroExtend 32) ∧
    back (.wrPnt c m v) (.rdPnt c) (ch.pnt.zeroExtend 32) (g.pnt.zeroExtend 32) ∧
    back (.wrLen c m v) (.rdLen c) ch.len g.len ∧
    back (.wrMaster m v) .rdMaster (s.master.zeroExtend 32) (g.master.zeroExtend 32) ∧
    back (.wrBias m v) .rdBias (s.bias.zeroExtend 32) (g.bias.zeroExtend 32)

/-- A command waits while a swap is pending, whatever its word; a consumer step or a release that is not enabled does not
happen; a request waits while another is in progress: nothing changes (43_synchronizer.md R175, R176, R178, R181 to R183;
D28, D29; that such a step answers with the state unchanged is the model's choice, log entry 16). -/
def Obligations.WaitingStepsChangeNothing : Prop :=
  (∀ (w : BitVec 72) (s : State), s.swapPending = true → exec (decodeCommand w) s = .next s) ∧
  ∀ (n : Word) (s : State),
    (¬(s.swapPending = true ∧ s.ready = false) → exec .swapRelease s = .next s) ∧
    (s.reqPhase ≠ .idle → exec (.req n) s = .next s ∧ exec (.reqStart n) s = .next s) ∧
    (¬(s.reqPhase = .waiting ∧ s.ready = true) → exec .reqTake s = .next s) ∧
    (¬(s.reqPhase = .waiting ∧ s.ready = false) → exec .reqExpire s = .next s) ∧
    (s.reqPhase ≠ .expired → exec .reqFallback s = .next s)

/-- A code that names no operation changes the fault record only, and only if it holds none (30_encoding.md R89,
60_exceptions.md R231, R233; D31, D32). -/
def Obligations.ReservedCommandIsRecorded : Prop :=
  ∀ (code : Byte) (s : State), s.swapPending = false →
    (s.fault = none → exec (.reservedFx code) s = .next { s with fault := some (.cmdReserved code) }) ∧
    (∀ f, s.fault = some f → exec (.reservedFx code) s = .next s)

/-- The first label is kept: no step but a reset changes a record that holds one (60_exceptions.md R233; D31). -/
def Obligations.FirstFaultIsKept : Prop :=
  ∀ (s t : State) (f : FaultRecord), step s = .next t → s.fault = some f → s.turns.head? ≠ some .reset →
    t.fault = some f

/-! ### Channel engine (40_channel_engine.md) -/

/-- `RAW.PCM8` and `RAW.PCM16`: one read at the pointer, answered from memory after the stores that land before it; the
signed byte times 256, the signed little-endian halfword; nothing else changes but the latch (R101, R102, 20_memory.md R52,
R60; byte order D21; the latch and the stores under way are the model's, log entries 14 and 5). -/
def Obligations.RawPcmSamples : Prop :=
  ∀ (c : Chan) (s : State),
    let p := (getChan s c).ptr
    let m := storeAll s.mem (s.busStores.headD [])
    let b0 := memGet m p.toNat
    let b1 := memGet m (p + 1).toNat
    let after (raw : Int) (n : Nat) (data : Word) : State :=
      { s with
        mem := m
        busStores := s.busStores.tail
        dp := { s.dp with raw := raw }
        history := .memRead s.params.memPriv p n data :: s.history }
    exec (.rawPcm8 c) s = .next (after (b0.toInt * 256) 1 (b0.zeroExtend 32)) ∧
    exec (.rawPcm16 c) s = .next (after (b1 ++ b0 : BitVec 16).toInt 2 ((b1 ++ b0 : BitVec 16).zeroExtend 32))

/-- The raw samples that read no memory: the accumulator; low while the duty counter is below 7 minus `DUTY`; low while
the polarity bit is set; 0 (R103; D11, D13). A row run on a channel of another kind changes nothing (the rows on their own
and the latch are the model's, log entries 14 and 15). -/
def Obligations.RawSamplesWithoutARead : Prop :=
  ∀ (c : Chan) (s : State),
    let ch := getChan s c
    let g := genOf s.params c
    let latched (x : Int) : State := { s with dp := { s.dp with raw := x } }
    let duty := (ch.cnt.extractLsb' s.params.layout.duty 3).toNat
    exec (.rawAdpcm c) s = .next (latched ch.acc.toInt) ∧
    (g = .pulse → exec (.rawPulse c) s = .next (latched (if ch.dutyc.toNat < 7 - duty then -0x7FFF else 0x7FFF))) ∧
    (g = .noise → exec (.rawNoise c) s = .next (latched (if 2 ^ 15 ≤ ch.lfsr.toNat then -0x7FFF else 0x7FFF))) ∧
    (g = .silent → exec (.rawNone c) s = .next (latched 0)) ∧
    (g ≠ .pulse → exec (.rawPulse c) s = .next s) ∧ (g ≠ .noise → exec (.rawNoise c) s = .next s) ∧
    (g ≠ .silent → exec (.rawNone c) s = .next s)

/-- `ADV.PCM8`, `ADV.PCM16`, `ADV.NOISE`, `ADV.NONE`: the pointer plus 1 or 2 mod 2^32; the noise register by its rule, the
polarity cleared first; nothing (R107, R109, R111; D11, D12, D17; the tap mask is a parameter, O60). A generator's row run
on a channel of another kind changes nothing (the rows on their own are the model's, log entry 15). -/
def Obligations.AdvanceOfPcmNoiseAndSilence : Prop :=
  ∀ (c : Chan) (s : State),
    let ch := getChan s c
    let g := genOf s.params c
    let x := ch.lfsr.toNat % 2 ^ 15
    exec (.advPcm8 c) s = .next (setChan s c { ch with ptr := ch.ptr + 1 }) ∧
    exec (.advPcm16 c) s = .next (setChan s c { ch with ptr := ch.ptr + 2 }) ∧
    (g = .noise → ∃ y : Half, exec (.advNoise c) s = .next (setChan s c { ch with lfsr := y }) ∧
      y.toNat = if x % 2 = 1 then Nat.lor 0x8000 (Nat.xor (x / 2) s.params.lfsrTap.toNat) else x / 2) ∧
    exec (.advNone c) s = .next s ∧
    (g ≠ .noise → exec (.advNoise c) s = .next s) ∧ (g ≠ .pulse → exec (.advPulse c) s = .next s)

/-- `ADV.PULSE` on a channel of `PULSE_CH` counts its duty counter modulo 8, and nothing else changes; with the spec's
`PULSE_CH` these are the channels 8 to 13 (R108). -/
def Obligations.AdvanceOfPulse : Prop :=
  (∀ (c : Chan) (s : State), genOf s.params c = .pulse →
    ∃ v : BitVec 3, exec (.advPulse c) s = .next (setChan s c { getChan s c with dutyc := v }) ∧
      v.toNat = ((getChan s c).dutyc.toNat + 1) % 8) ∧
  ∀ (c : Chan) (s : State), s.params.pulseCh = Params.default.pulseCh → 8 ≤ c.val → c.val ≤ 13 →
    genOf s.params c = .pulse

/-- `TIMER` without a carry: the counter plus 512, and nothing else (R104). -/
def Obligations.TimerWithoutOverflow : Prop :=
  ∀ (c : Chan) (s : State), (getChan s c).tcnt.toNat + 512 < 2 ^ 16 →
    exec (.timer c) s = .next (setChan s c { getChan s c with tcnt := (getChan s c).tcnt + 512 })

/-- `TIMER` with a carry out of the increment: one advance by the row of the channel's format on the counter reloaded by
addition, then the end-of-data check, which leaves a state `v`. Without a carry out of the reload, or if bit 31 of `CNT` is
0 in `v`, `TIMER` ends there, the counter at the value of the reload. With a carry still due it goes on from `v` as it does
from the counter that its increment wraps to the one in `v`, 512 below it mod 2^16: one more overflow, and so on for every
further one (R104, R105; D14, D15). -/
def Obligations.TimerOverflowLoop : Prop :=
  ∀ (c : Chan) (s : State),
    let ch := getChan s c
    let sum := ch.tcnt.toNat + 512 - 2 ^ 16 + ch.tmr.toNat
    2 ^ 16 ≤ ch.tcnt.toNat + 512 →
    ∃ u v, exec (advanceRow s.params (formatOf s.params ch.cnt) c)
        (setChan s c { ch with tcnt := BitVec.ofNat 16 sum }) = .next u ∧
      exec (.endCheck c) u = .next v ∧ (getChan v c).tcnt.toNat = sum % 2 ^ 16 ∧
      (sum < 2 ^ 16 ∨ (getChan v c).cnt.getLsbD 31 = false → exec (.timer c) s = .next v) ∧
      (2 ^ 16 ≤ sum → (getChan v c).cnt.getLsbD 31 = true →
        exec (.timer c) s = exec (.timer c) (setChan v c { getChan v c with tcnt := (getChan v c).tcnt - 512 }))

/-- The overflow loop ends by itself within 512 passes: from a counter of at most 511, as the increment's carry leaves it,
more passes than 512 change nothing (R105, whose count is marked derived; D14; the bound in the model: log entry 24). -/
def Obligations.OverflowLoopNeedsAtMost512Passes : Prop :=
  ∀ (fmt : Format) (c : Chan) (n : Nat) (s : State), (getChan s c).tcnt.toNat ≤ 511 → 512 ≤ n →
    overflowLoop fmt c n s = overflowLoop fmt c 512 s

/-- `TIMER`, the advance of ADPCM, `END` and the four `FORMAT` rows complete in every state and touch only their own
channel's playback and decoder registers, its enable bit (clear only), its own generator, and the read port; memory changes
only by the stores of other masters that land before those reads; the latches hold at most a new raw sample (10_state.md
R37, 70_reset_and_hazards.md R281, both marked derived, 20_memory.md R60; rows run on their own: log entry 15). -/
def Obligations.ChannelWorkStaysInItsChannel : Prop :=
  ∀ (c : Chan) (s : State),
    (∃ t, exec (.timer c) s = .next t ∧ OnlyChannel c s t ∧ OnlyReads 512 s t ∧ t.dp = s.dp) ∧
    (∃ t, exec (.advAdpcm c) s = .next t ∧ OnlyChannel c s t ∧ OnlyReads 1 s t ∧ t.dp = s.dp) ∧
    (∃ t, exec (.endCheck c) s = .next t ∧ OnlyChannel c s t ∧ OnlyReads 0 s t ∧ t.dp = s.dp) ∧
    ∀ i ∈ ([.formatPcm8 c, .formatPcm16 c, .formatAdpcm c, .formatPsg c] : List Instr),
      ∃ t, exec i s = .next t ∧ OnlyChannel c s t ∧ OnlyReads 513 s t ∧ t.dp = { s.dp with raw := t.dp.raw }

/-- `END` and the `REPEAT` rows: no check in format 3 or away from the end address; in loop mode the pointer goes to the
loop start and ADPCM restores its snapshot; in one-shot mode bit 31 of `CNT` is cleared, in manual mode and the reserved
one too unless `MANUAL_STOPS` is false; nothing else changes (R112; D16, D17; the rows on their own: log entry 15; with
`MANUAL_STOPS` false: log entry 10; the fields: O60). -/
def Obligations.EndOfDataByRepeatMode : Prop :=
  ∀ (c : Chan) (s : State),
    let ch := getChan s c
    let fmt := formatOf s.params ch.cnt
    let rep := repeatOf s.params ch.cnt
    let endA : Word := BitVec.ofNat 32 (ch.sad.toNat + 4 * (ch.pnt.toNat + ch.len.toNat))
    let start : Word := BitVec.ofNat 32 (ch.sad.toNat + 4 * ch.pnt.toNat)
    let wrapped : State := if fmt = .adpcm then
        setChan s c { ch with ptr := start, acc := ch.snapAcc, idx := ch.snapIdx, nsel := false }
      else setChan s c { ch with ptr := start }
    let stopped : State := setChan s c { ch with cnt := ch.cnt &&& 0x7FFFFFFF }
    let manual : State := if s.params.manualStops then stopped else s
    (fmt = .psg ∨ ch.ptr ≠ endA → exec (.endCheck c) s = .next s) ∧
    (fmt ≠ .psg → ch.ptr = endA → rep = .loop → exec (.endCheck c) s = .next wrapped) ∧
    (fmt ≠ .psg → ch.ptr = endA → rep = .oneshot → exec (.endCheck c) s = .next stopped) ∧
    (fmt ≠ .psg → ch.ptr = endA → rep = .manual ∨ rep = .reserved → exec (.endCheck c) s = .next manual) ∧
    exec (.repeatLoop c) s = .next wrapped ∧ exec (.repeatOneshot c) s = .next stopped ∧
    exec (.repeatManual c) s = .next manual ∧ exec (.repeatReserved c) s = .next manual

/-- The `FORMAT` row of the value a channel's field holds is the raw sample of that format, then `TIMER` (R100 to R105;
the row as an operation is the model's choice, log entry 15). -/
def Obligations.FormatRowIsRawThenTimer : Prop :=
  ∀ (c : Chan) (s : State),
    let fmt := formatOf s.params (getChan s c).cnt
    ∃ u t, exec (rawRow s.params fmt c) s = .next u ∧ exec (.timer c) u = .next t ∧ exec (formatRow fmt c) s = .next t

/-! ### ADPCM (41_adpcm.md) -/

/-- The sixteen codes: the delta of separately truncated terms from the index before its update, added or with bit 3
subtracted, clamped to 0x7FFF on both sides; the index changed by `INDEX_DELTA` of the magnitude, clamped to 0..88; the
selector toggled; the pointer moved after the second half; nothing else (R135 to R139; D5 to D8, D34; the tables are
parameters, O33, O60). -/
def Obligations.SixteenCodes : Prop :=
  ∀ (c : Chan) (s : State),
    ∀ p ∈ ([(.nib0 c, 0x0), (.nib1 c, 0x1), (.nib2 c, 0x2), (.nib3 c, 0x3), (.nib4 c, 0x4), (.nib5 c, 0x5),
      (.nib6 c, 0x6), (.nib7 c, 0x7), (.nib8 c, 0x8), (.nib9 c, 0x9), (.nibA c, 0xA), (.nibB c, 0xB), (.nibC c, 0xC),
      (.nibD c, 0xD), (.nibE c, 0xE), (.nibF c, 0xF)] : List (Instr × Nat)),
      let ch := getChan s c
      let t := stepSize s.params ch.idx
      let m := p.2 % 8
      let delta : Int := t / 8 + (if m % 2 = 1 then t / 4 else 0) + (if m / 2 % 2 = 1 then t / 2 else 0) +
        (if m / 4 = 1 then t else 0)
      let change : Int := s.params.indexDelta[m]?.getD 0
      ∃ acc idx, exec p.1 s = .next (setChan s c
          { ch with acc := acc, idx := idx, nsel := !ch.nsel, ptr := if ch.nsel then ch.ptr + 1 else ch.ptr }) ∧
        acc.toInt = max (-0x7FFF) (min 0x7FFF (if 8 ≤ p.2 then ch.acc.toInt - delta else ch.acc.toInt + delta)) ∧
        (idx.toNat : Int) = max 0 (min 88 (ch.idx.toNat + change))

/-- The step size at an index up to 88 is the entry of `STEP_TABLE` there, for every table; the spec's table, the default,
is the 89 numbers that the generating rule of R131 gives (R131, from general knowledge; D5). -/
def Obligations.StepTableIsTheGeneratedOne : Prop :=
  (∀ (p : Params) (idx : BitVec 7), idx.toNat ≤ 88 →
    ∃ e : BitVec 15, p.stepTable[idx.toNat]? = some e ∧ stepSize p idx = e.toNat) ∧
  Params.default.stepTable.toList.map BitVec.toNat =
    ((((List.range 89).map fun i => (Nat.repeat (fun x => x + x / 10) i 0x000776D2) / 2 ^ 16).set 3 10).set 4 11).set 88
      0x7FFF

/-- `ADV.ADPCM`: the capture, one byte read at the pointer, answered from memory after the stores that land before it, and
the code of the half the selector names (R134, R140, 20_memory.md R60, 70_reset_and_hazards.md R266; first half low unless
the open parameter `ADPCM_FIRST_NIBBLE` is high: D8, log entry 9; the stores under way: log entry 5). -/
def Obligations.AdpcmAdvanceIsCaptureFetchDecode : Prop :=
  ∀ (c : Chan) (s : State),
    let ch := getChan s c
    let m := storeAll s.mem (s.busStores.headD [])
    let b := memGet m ch.ptr.toNat
    let high := ch.nsel != s.params.highNibbleFirst
    let n : BitVec 4 := if high then b.extractLsb' 4 4 else b.extractLsb' 0 4
    ∃ u t, exec (.snapCapture c) s = .next u ∧
      exec (decodeNibble c n)
        { u with
          mem := m
          busStores := s.busStores.tail
          history := .memRead s.params.memPriv ch.ptr 1 (b.zeroExtend 32) :: s.history } = .next t ∧
      exec (.advAdpcm c) s = .next t

/-- `SNAP.CAPTURE`: on the loop start with the selector at 0 the snapshot takes accumulator and index; otherwise nothing
(R133; D9). -/
def Obligations.SnapshotCapture : Prop :=
  ∀ (c : Chan) (s : State),
    let ch := getChan s c
    let onStart := ch.ptr.toNat = (ch.sad.toNat + 4 * ch.pnt.toNat) % 2 ^ 32 ∧ ch.nsel = false
    (onStart → exec (.snapCapture c) s = .next (setChan s c { ch with snapAcc := ch.acc, snapIdx := ch.idx })) ∧
    (¬onStart → exec (.snapCapture c) s = .next s)

/-- `SNAP.RESTORE`: accumulator and index from the snapshot, verbatim, the selector 0; the snapshot and everything else
unchanged (R141). -/
def Obligations.SnapshotRestore : Prop :=
  ∀ (c : Chan) (s : State),
    let ch := getChan s c
    exec (.snapRestore c) s = .next (setChan s c { ch with acc := ch.snapAcc, idx := ch.snapIdx, nsel := false })

/-- Loop fidelity: right after a wrap of an ADPCM channel accumulator and index are the snapshot, and the capture test of
the next advance, which finds the pointer on the loop start, stores what is there already (R142 items 2 and 3, marked
derived). -/
def Obligations.SnapshotSurvivesTheWrap : Prop :=
  ∀ (c : Chan) (s : State),
    let ch := getChan s c
    formatOf s.params ch.cnt = .adpcm → repeatOf s.params ch.cnt = .loop →
    ch.ptr = BitVec.ofNat 32 (ch.sad.toNat + 4 * (ch.pnt.toNat + ch.len.toNat)) →
    ∃ t, exec (.endCheck c) s = .next t ∧ (getChan t c).acc = ch.snapAcc ∧ (getChan t c).idx = ch.snapIdx ∧
      (getChan t c).ptr = BitVec.ofNat 32 (ch.sad.toNat + 4 * ch.pnt.toNat) ∧
      (getChan t c).snapAcc = ch.snapAcc ∧ (getChan t c).snapIdx = ch.snapIdx ∧ exec (.snapCapture c) t = .next t

/-! ### Volume, pan, mixer (42_volume_pan_mixer.md) -/

/-- `VOLUME` and `PAN` in closed form, 127 acting as 128 and `VDIV` 3 as shift 4; the only rounding is the floor of the
pan shift (R150, R152; D18; latches: log entry 14; the positions of the fields are parameters, O60). -/
def Obligations.VolumeAndPanClosedForm : Prop :=
  ∀ (c : Chan) (s : State),
    let cnt := (getChan s c).cnt
    let lay := s.params.layout
    let vdiv := (cnt.extractLsb' lay.vdiv 2).toNat
    let vmul := (cnt.extractLsb' lay.vmul 7).toNat
    let field := (cnt.extractLsb' lay.pan 7).toNat
    let sh := if vdiv = 3 then 4 else vdiv
    let mul : Int := if vmul = 127 then 128 else vmul
    let pan : Int := if field = 127 then 128 else field
    exec (.volume c) s = .next { s with dp := { s.dp with s11 := s.dp.raw * 2 ^ (4 - sh) * mul } } ∧
    exec (.pan c) s = .next
      { s with dp := { s.dp with l := s.dp.s11 * (128 - pan) / 1024, r := s.dp.s11 * pan / 1024 } }

/-- The output stage: sum times master volume, 127 acting as 128 unless `MVOL_127_IS_128` is false; floor of the shift by 21
plus the bias; clip to 0..1023; minus 0x200 times 32; right half over left half (R155 to R159; D18, D19; latches: log entry
14; the position of the field is a parameter, O60). -/
def Obligations.OutputStageSteps : Prop :=
  ∀ s : State,
    let mvol := (s.master.extractLsb' s.params.layout.mvol 7).toNat
    let vol : Int := if mvol = 127 ∧ s.params.mvol127Is128 = true then 128 else mvol
    let bias : Int := (s.bias.extractLsb' 0 10).toNat
    let d := s.dp
    exec .mixMaster s = .next { s with dp := { d with mL := d.sumL * vol, mR := d.sumR * vol } } ∧
    exec .mixBias s = .next { s with dp := { d with bL := d.mL / 2 ^ 21 + bias, bR := d.mR / 2 ^ 21 + bias } } ∧
    exec .mixClip s = .next
      { s with dp := { d with vL := max 0 (min 1023 d.bL), vR := max 0 (min 1023 d.bR) } } ∧
    exec .mixRecentre s = .next { s with dp := { d with oL := (d.vL - 512) * 32, oR := (d.vR - 512) * 32 } } ∧
    (∃ f : Frame, exec .mixPack s = .next { s with dp := { d with frame := f } } ∧
      f.extractLsb' 16 16 = BitVec.ofInt 16 d.oR ∧ f.extractLsb' 0 16 = BitVec.ofInt 16 d.oL)

/-- Whatever the sums, each half of the frame the output stage makes is a signed 16-bit sample `(v - 0x200) * 32` with `v`
in 0 to 1023 (30_encoding.md R85). -/
def Obligations.FrameHalvesAreTenBitSamples : Prop :=
  ∀ (p : Params) (master bias : Half) (sumL sumR : Int), ∃ vL vR : Nat, vL ≤ 1023 ∧ vR ≤ 1023 ∧
    ((outputFrame p master bias sumL sumR).extractLsb' 0 16).toInt = ((vL : Int) - 0x200) * 32 ∧
    ((outputFrame p master bias sumL sumR).extractLsb' 16 16).toInt = ((vR : Int) - 0x200) * 32

/-! ### TICK -/

/-- With every channel disabled a TICK is one `PUSH` of the bias level on both sides, and nothing else (R100, R106, R158,
70_reset_and_hazards.md R263 item 1, marked derived). -/
def Obligations.SilentTickPushesTheBiasLevel : Prop :=
  ∀ s : State, s.swapPending = false → (∀ c, (getChan s c).cnt.getLsbD 31 = false) →
    ∃ (f : Frame) (t : State),
      (f.extractLsb' 0 16).toInt = (((s.bias.extractLsb' 0 10).toNat : Int) - 512) * 32 ∧
      (f.extractLsb' 16 16).toInt = (((s.bias.extractLsb' 0 10).toNat : Int) - 512) * 32 ∧
      exec (.push f) s = .next t ∧ exec .tick s = .next t

/-- A disabled channel takes no part in a TICK: its registers stay as they are, and whatever else they held, its duty counter
and noise register among them, the TICK would have done the same to everything else (R106, R215; 10_state.md R26, R37). -/
def Obligations.DisabledChannelTakesNoPart : Prop :=
  ∀ (c : Chan) (ch : Channel) (s : State), s.swapPending = false →
    (getChan s c).cnt.getLsbD 31 = false → ch.cnt.getLsbD 31 = false →
    ∃ t, exec .tick s = .next t ∧ getChan t c = getChan s c ∧
      exec .tick (setChan s c ch) = .next (setChan t c ch)

/-- What a TICK leaves alone: every bank register but bit 31 of `CNT` (clear only), disabled channels, the generator
registers of channels that own none, the globals, the request, the record, the surroundings, and every frame but the one at
the write cursor of the write buffer; its reads are at most 16 times 513; memory changes only by the stores of other
masters that land before those reads (10_state.md R37, 70_reset_and_hazards.md R281, both marked derived; 20_memory.md
R60; the stores under way: log entry 5). -/
def Obligations.TickFrameCondition : Prop :=
  ∀ s : State, s.swapPending = false → ∃ t, exec .tick s = .next t ∧
    (∀ c, BankKept (genOf s.params c) (getChan s c) (getChan t c)) ∧
    (∀ c, (getChan s c).cnt.getLsbD 31 = false → getChan t c = getChan s c) ∧
    (∀ b i, ¬(b = s.wsel ∧ i = s.wcur) → (getBuf t b)[i]? = (getBuf s b)[i]?) ∧
    (∀ b, (getBuf t b).length = (getBuf s b).length) ∧
    OnlyReads (16 * 513) s t ∧
    (∀ a, (∀ l ∈ s.busStores, ∀ p ∈ l, p.1.toNat ≠ a) → memGet t.mem a = memGet s.mem a) ∧
    t.master = s.master ∧ t.bias = s.bias ∧ t.cap = s.cap ∧ t.reqPhase = s.reqPhase ∧ t.reqCount = s.reqCount ∧
    t.fault = s.fault ∧ t.limitRate = s.limitRate ∧ t.params = s.params ∧ t.cmdQ = s.cmdQ ∧
    t.reqQ = s.reqQ ∧ t.turns = s.turns ∧ t.dp = s.dp ∧ t.draws = s.draws ∧ t.raced = s.raced

/-- A TICK is its named sub-steps one after another, each run as an operation of its own: for each enabled channel the row
of its format, `VOLUME`, `PAN` and the sums, then the five steps of the output stage and one `PUSH`; the two agree on
everything but the latches, which a TICK leaves alone (R100; the latches are the model's, log entries 14 and 15). -/
def Obligations.TickIsItsSubSteps : Prop :=
  ∀ s : State, s.swapPending = false →
    ∃ t, tickBySubSteps s = .next t ∧ exec .tick s = .next (setDp t s.dp)

/-! ### Synchronizer (43_synchronizer.md) -/

/-- `PUSH`: dropped with capacity 0; else stored at the cursor of the write buffer and the cursor moved; `SWAP.REQ` when
that fills the buffer (R171). -/
def Obligations.PushStoresAndMayRequestASwap : Prop :=
  ∀ (f : Frame) (s : State),
    let s1 : State :=
      { s with
        buf0 := if s.wsel then s.buf0 else s.buf0.set s.wcur f
        buf1 := if s.wsel then s.buf1.set s.wcur f else s.buf1
        wcur := s.wcur + 1 }
    (s.cap = 0 → exec (.push f) s = .next s) ∧
    (s.cap ≠ 0 → s.wcur + 1 ≠ s.cap → exec (.push f) s = .next s1) ∧
    (s.cap ≠ 0 → s.wcur + 1 = s.cap → ∃ t, exec .swapReq s1 = .next t ∧ exec (.push f) s = .next t)

/-- `SWAP.REQ`: with `limit_rate = 1` and `READY = 1` the swap stays pending; otherwise it is the swap (R173; D28). -/
def Obligations.SwapRequestStallsOrSwaps : Prop :=
  ∀ s : State,
    (s.limitRate = true → s.ready = true → exec .swapReq s = .next { s with swapPending := true }) ∧
    (s.limitRate = false ∨ s.ready = false → ∃ t, exec .swap s = .next t ∧ exec .swapReq s = .next t)

/-- `SWAP`: buffer identities exchanged, no frame moved, `READY = 1`, the cursor 0, nothing pending (R174). -/
def Obligations.SwapExchangesIdentities : Prop :=
  ∀ s : State, exec .swap s = .next { s with wsel := !s.wsel, ready := true, wcur := 0, swapPending := false }

/-- `SWAP_RELEASE` where it is enabled is the swap (R176). -/
def Obligations.ReleaseSwaps : Prop :=
  ∀ s : State, s.swapPending = true → s.ready = false →
    ∃ t, exec .swap s = .next t ∧ exec .swapRelease s = .next t ∧ t.swapPending = false ∧ cmdHold t = false

/-- `REQ` and its first step `REQ.START`: the checks in their order, each raising its label and changing the record only;
else a resize if the count is not the capacity, and the wait (R178, R179, 60_exceptions.md R231, R234; D26, D27, D29, D31;
`raced` is the model's mark of the race, log entry 17). -/
def Obligations.RequestStart : Prop :=
  ∀ (n : Word) (s : State), s.reqPhase = .idle →
    ∀ i, i = .req n ∨ i = .reqStart n →
    let recorded (f : FaultRecord) : State := { s with fault := some (s.fault.getD f) }
    (n = 0 → exec i s = .next (recorded (.reqZero n))) ∧
    (n ≠ 0 → s.params.bufMax < n.toNat → exec i s = .next (recorded (.alloc n))) ∧
    (n ≠ 0 → n.toNat ≤ s.params.bufMax → n.toNat = s.cap →
      exec i s = .next { s with reqCount := n, reqPhase := .waiting }) ∧
    (n ≠ 0 → n.toNat ≤ s.params.bufMax → n.toNat ≠ s.cap → s.swapPending = true →
      exec i s = .next { recorded (.resizeRace n) with raced := true }) ∧
    (n ≠ 0 → n.toNat ≤ s.params.bufMax → n.toNat ≠ s.cap → s.swapPending = false →
      ∃ t, exec (.resize n) s = .next t ∧ exec i s = .next { t with reqCount := n, reqPhase := .waiting })

/-- `RESIZE`: the new capacity, the cursor 0, both buffers of that many free frames; `READY`, `WSEL` and everything else
stay; with a swap pending the race is recorded instead (R179; D27, D31; which free frames: log entry 11; `raced` is the
model's mark of the race, log entry 17). -/
def Obligations.ResizeDrawsNewBuffers : Prop :=
  ∀ (n : Word) (s : State),
    (s.swapPending = false → ∃ b0 b1 : List Frame, b0.length = n.toNat ∧ b1.length = n.toNat ∧
      exec (.resize n) s = .next
        { s with cap := n.toNat, wcur := 0, buf0 := b0, buf1 := b1, draws := s.draws + 1 }) ∧
    (s.swapPending = true → exec (.resize n) s = .next
      { s with fault := some (s.fault.getD (.resizeRace n)), raced := true })

/-- The endings of a request: the take delivers the first `REQ_COUNT` frames of the ready buffer, the expiry changes the
phase only, the fallback delivers the last of those frames that many times; both endings clear `READY` and nothing else
changes (R181 to R183; D29, D30; the record of the delivery is the model's, log entry 18). The buffers are as long as the
request, which the invariant `BlockInv` gives. -/
def Obligations.RequestEndings : Prop :=
  ∀ s : State,
    let n := s.reqCount.toNat
    let buf := getBuf s (!s.wsel)
    let ended (fs : List Frame) : State :=
      { s with ready := false, reqPhase := .idle, history := .reqData fs :: s.history }
    (s.reqPhase = .waiting → s.ready = true → n ≤ buf.length → exec .reqTake s = .next (ended (buf.take n))) ∧
    (s.reqPhase = .waiting → s.ready = false → exec .reqExpire s = .next { s with reqPhase := .expired }) ∧
    (∀ f, s.reqPhase = .expired → buf[n - 1]? = some f →
      exec .reqFallback s = .next (ended (List.replicate n f)))

/-- The stale-buffer property: two requests of the same size with no producer step between deliver, the second time, the
last frame of the first delivery throughout, whichever way the first one ends (R187, marked derived; turns and delivery
record: log entries 1 and 18). -/
def Obligations.SecondRequestRepeatsTheLastFrame : Prop :=
  ∀ (s : State) (n : Word) (ts : List Turn), BlockInv s → s.raced = false → s.reqPhase = .idle → n ≠ 0 →
    n.toNat = s.cap → s.reqQ = [n, n] →
    s.turns = [.consumer, .deadline, .consumer, .consumer, .deadline, .consumer] ++ ts →
    ∃ (t : State) (first : List Frame) (f : Frame), core.run 6 s = .next t ∧
      t.history = .reqData (List.replicate n.toNat f) :: .reqData first :: s.history ∧
      first.length = n.toNat ∧ first.getLast? = some f ∧ t.ready = false ∧ t.reqPhase = .idle

/-- Unthrottled, no command leaves the producer stalled (R186 item (a), marked derived). -/
def Obligations.UnthrottledProducerNeverStalls : Prop :=
  ∀ (w : BitVec 72) (s : State), s.limitRate = false → s.swapPending = false →
    ∃ t, exec (decodeCommand w) s = .next t ∧ t.swapPending = false

/-- Every accepted request ends: two turns of a consumer whose deadline has passed end it with exactly one delivery of
`REQ_COUNT` frames and `READY = 0` (R180, R182, R184; D29; turns and delivery record: log entries 1 and 18). -/
def Obligations.AcceptedRequestIsDelivered : Prop :=
  ∀ (s : State) (ts : List Turn), s.raced = false → s.reqPhase ≠ .idle → s.reqQ = [] →
    s.turns = .deadline :: .deadline :: ts →
    ∃ (t : State) (fs : List Frame), core.run 2 s = .next t ∧ t.history = .reqData fs :: s.history ∧
      fs.length = s.reqCount.toNat ∧ t.reqPhase = .idle ∧ t.ready = false

/-! ### Reset -/

/-- `RESET` and the state right after reset: every register of the block at its value of 10_state.md R35, `LFSR_INIT` and
`CAP_RESET` among them, whatever the block was doing; the surroundings stay (70_reset_and_hazards.md R260; D25; what counts
as surroundings: log entry 19; the two parameters: O60). -/
def Obligations.ResetValues : Prop :=
  ∀ s : State, ∃ t, exec .reset s = .next t ∧
    (∀ r ∈ [t, State.reset],
      (∀ c, getChan r c = { cnt := 0, sad := 0, tmr := 0, pnt := 0, len := 0, ptr := 0, tcnt := 0, acc := 0, idx := 0,
                            nsel := false, snapAcc := 0, snapIdx := 0, dutyc := 0, lfsr := r.params.lfsrInit }) ∧
      r.master = 0 ∧ r.bias = 0 ∧ r.wsel = false ∧ r.wcur = 0 ∧ r.cap = r.params.capReset ∧
      r.buf0.length = r.params.capReset ∧ r.buf1.length = r.params.capReset ∧ r.ready = false ∧
      r.swapPending = false ∧ r.reqPhase = .idle ∧ r.reqCount = 0 ∧ r.fault = none ∧ r.raced = false) ∧
    t.mem = s.mem ∧ t.busStores = s.busStores ∧ t.limitRate = s.limitRate ∧ t.params = s.params ∧ t.cmdQ = s.cmdQ ∧
    t.reqQ = s.reqQ ∧ t.turns = s.turns ∧ t.history = s.history

/-! ### The whole machine -/

/-- The state right after reset meets the invariant (10_state.md R34). -/
def Obligations.InvariantHoldsAtReset : Prop := BlockInv State.reset

/-- Every step keeps the invariant of 10_state.md R34 (marked derived), with the buffers' lengths, the request in progress
and the canonical form of memory, for all parameters that leave the noise register alive and the reset capacity within
`BUF_MAX`. -/
def Obligations.EveryStepKeepsTheInvariant : Prop :=
  ∀ s t : State, BlockInv s → step s = .next t → BlockInv t

/-- What each agent may touch: the consumer no channel, generator or global register and no sample memory, the producer no
request state and no capacity, neither of them the parameters or `limit_rate`; memory changes only by other masters'
stores, at their own turn or as they land before the producer's reads (60_exceptions.md R242, 00_scope.md R10, 20_memory.md
R60, R61, R65; turns and stores under way: log entries 1 and 5). -/
def Obligations.AgentsKeepToTheirOwnState : Prop :=
  ∀ (s t : State) (a : Turn) (ts : List Turn), s.turns = a :: ts → step s = .next t →
    (a = .consumer ∨ a = .deadline → t.chans = s.chans ∧ t.master = s.master ∧ t.bias = s.bias ∧ t.wsel = s.wsel ∧
      t.swapPending = s.swapPending ∧ t.cmdQ = s.cmdQ ∧ t.mem = s.mem ∧ t.busStores = s.busStores) ∧
    (a = .producer → t.reqPhase = s.reqPhase ∧ t.reqCount = s.reqCount ∧ t.reqQ = s.reqQ ∧ t.cap = s.cap) ∧
    ((∀ x v, a ≠ .poke x v) → ∃ k, t.mem = landed s k ∧ t.busStores = s.busStores.drop k) ∧ t.params = s.params ∧
    ((∀ l, a ≠ .limitRate l) → t.limitRate = s.limitRate)

/-! ### Sample memory (20_memory.md) -/

/-- A byte another master stores is the byte the next read returns, every other byte reads as before, and the canonical
form is kept (R60, marked derived; turns: log entry 1). A read of 1, 2 or 4 bytes is little-endian, each byte address
taken mod 2^32 (R52; D21). -/
def Obligations.StoresAndLittleEndianReads : Prop :=
  (∀ (s : State) (a : Word) (v : Byte) (ts : List Turn), memWf s.mem = true → s.turns = .poke a v :: ts →
    ∃ t, step s = .next t ∧ memGet t.mem a.toNat = v ∧ (∀ b, b ≠ a.toNat → memGet t.mem b = memGet s.mem b) ∧
      memWf t.mem = true) ∧
  ∀ (s : State) (a : Word),
    let b (i : Nat) : Nat := (memGet s.mem ((a.toNat + i) % 2 ^ 32)).toNat
    (memValue s.mem a 1).toNat = b 0 ∧ (memValue s.mem a 2).toNat = b 0 + 256 * b 1 ∧
    (memValue s.mem a 4).toNat = b 0 + 2 ^ 8 * b 1 + 2 ^ 16 * b 2 + 2 ^ 24 * b 3

/-! ### Parameters (00_scope.md R7) -/

/-- The parameters at reset are the values of R7, and with them the fields stand where 30_encoding.md R70 and R76 put them,
mean what R71 says, and the generators belong to channels 8 to 13 and 14 to 15 (D3, D5, D8, D11, D12, D16, D19, D22, D26;
`BUF_MAX`, which has no value, is the model's, log entry 7; the restart of a generator is D12). -/
def Obligations.DefaultParametersAreTheSpecsValues : Prop :=
  State.reset.params = Params.default ∧
  ∀ (c : Chan) (cnt : Word) (master : Half),
    let p := Params.default
    p.masks = { cnt := 0xFF7F837F, sad := 0x07FFFFFC, tmr := 0xFFFF, pnt := 0xFFFF, len := 0x003FFFFF,
                master := 0xBF7F, bias := 0x03FF } ∧
    p.memPriv = true ∧ p.bufMax = 65536 ∧ p.capReset = 0 ∧ p.highNibbleFirst = false ∧ p.manualStops = true ∧
    p.mvol127Is128 = true ∧ p.psgRestart = true ∧ p.lfsrInit = 0x7FFF ∧ p.lfsrTap = 0x6000 ∧
    p.indexDelta.toList = [-1, -1, -1, -1, 2, 4, 6, 8] ∧
    (genOf p c = .pulse ↔ 8 ≤ c.val ∧ c.val ≤ 13) ∧ (genOf p c = .noise ↔ 14 ≤ c.val) ∧
    formatRow (formatOf p cnt) c = decodeFormatField c cnt ∧
    repeatRow (repeatOf p cnt) c = decodeRepeatField c cnt ∧
    volFactor p cnt = upTo128 (cnt.extractLsb' 0 7) ∧ panFactor p cnt = upTo128 (cnt.extractLsb' 16 7) ∧
    divShift p cnt = (if (cnt.extractLsb' 8 2) = 3 then 4 else (cnt.extractLsb' 8 2).toNat) ∧
    dutyThreshold p cnt = 7 - (cnt.extractLsb' 24 3).toNat ∧
    masterVolume p master = upTo128 (master.extractLsb' 0 7)
end

