-- ==== Sys2Proof/Laws/State.lean ====
section
/-! SUPPORT. One lemma per field per named update of State, each true by unfolding, so that no proof unfolds a record
update; and what reading a channel gives after writing one. -/

namespace Sys2Proof.Machine

variable (s : State)

/-! ### setChan -/

@[simp] theorem setChan_chans (c : Chan) (ch : Channel) : (setChan s c ch).chans = s.chans.set c ch := rfl
@[simp] theorem setChan_master (c : Chan) (ch : Channel) : (setChan s c ch).master = s.master := rfl
@[simp] theorem setChan_bias (c : Chan) (ch : Channel) : (setChan s c ch).bias = s.bias := rfl
@[simp] theorem setChan_buf0 (c : Chan) (ch : Channel) : (setChan s c ch).buf0 = s.buf0 := rfl
@[simp] theorem setChan_buf1 (c : Chan) (ch : Channel) : (setChan s c ch).buf1 = s.buf1 := rfl
@[simp] theorem setChan_wsel (c : Chan) (ch : Channel) : (setChan s c ch).wsel = s.wsel := rfl
@[simp] theorem setChan_wcur (c : Chan) (ch : Channel) : (setChan s c ch).wcur = s.wcur := rfl
@[simp] theorem setChan_cap (c : Chan) (ch : Channel) : (setChan s c ch).cap = s.cap := rfl
@[simp] theorem setChan_ready (c : Chan) (ch : Channel) : (setChan s c ch).ready = s.ready := rfl
@[simp] theorem setChan_swapPending (c : Chan) (ch : Channel) : (setChan s c ch).swapPending = s.swapPending := rfl
@[simp] theorem setChan_reqPhase (c : Chan) (ch : Channel) : (setChan s c ch).reqPhase = s.reqPhase := rfl
@[simp] theorem setChan_reqCount (c : Chan) (ch : Channel) : (setChan s c ch).reqCount = s.reqCount := rfl
@[simp] theorem setChan_fault (c : Chan) (ch : Channel) : (setChan s c ch).fault = s.fault := rfl
@[simp] theorem setChan_limitRate (c : Chan) (ch : Channel) : (setChan s c ch).limitRate = s.limitRate := rfl
@[simp] theorem setChan_mem (c : Chan) (ch : Channel) : (setChan s c ch).mem = s.mem := rfl
@[simp] theorem setChan_busStores (c : Chan) (ch : Channel) : (setChan s c ch).busStores = s.busStores := rfl
@[simp] theorem setChan_params (c : Chan) (ch : Channel) : (setChan s c ch).params = s.params := rfl
@[simp] theorem setChan_cmdQ (c : Chan) (ch : Channel) : (setChan s c ch).cmdQ = s.cmdQ := rfl
@[simp] theorem setChan_reqQ (c : Chan) (ch : Channel) : (setChan s c ch).reqQ = s.reqQ := rfl
@[simp] theorem setChan_turns (c : Chan) (ch : Channel) : (setChan s c ch).turns = s.turns := rfl
@[simp] theorem setChan_history (c : Chan) (ch : Channel) : (setChan s c ch).history = s.history := rfl
@[simp] theorem setChan_dp (c : Chan) (ch : Channel) : (setChan s c ch).dp = s.dp := rfl
@[simp] theorem setChan_draws (c : Chan) (ch : Channel) : (setChan s c ch).draws = s.draws := rfl
@[simp] theorem setChan_raced (c : Chan) (ch : Channel) : (setChan s c ch).raced = s.raced := rfl

/-! ### setDp -/

@[simp] theorem setDp_chans (d : Datapath) : (setDp s d).chans = s.chans := rfl
@[simp] theorem setDp_master (d : Datapath) : (setDp s d).master = s.master := rfl
@[simp] theorem setDp_bias (d : Datapath) : (setDp s d).bias = s.bias := rfl
@[simp] theorem setDp_buf0 (d : Datapath) : (setDp s d).buf0 = s.buf0 := rfl
@[simp] theorem setDp_buf1 (d : Datapath) : (setDp s d).buf1 = s.buf1 := rfl
@[simp] theorem setDp_wsel (d : Datapath) : (setDp s d).wsel = s.wsel := rfl
@[simp] theorem setDp_wcur (d : Datapath) : (setDp s d).wcur = s.wcur := rfl
@[simp] theorem setDp_cap (d : Datapath) : (setDp s d).cap = s.cap := rfl
@[simp] theorem setDp_ready (d : Datapath) : (setDp s d).ready = s.ready := rfl
@[simp] theorem setDp_swapPending (d : Datapath) : (setDp s d).swapPending = s.swapPending := rfl
@[simp] theorem setDp_reqPhase (d : Datapath) : (setDp s d).reqPhase = s.reqPhase := rfl
@[simp] theorem setDp_reqCount (d : Datapath) : (setDp s d).reqCount = s.reqCount := rfl
@[simp] theorem setDp_fault (d : Datapath) : (setDp s d).fault = s.fault := rfl
@[simp] theorem setDp_limitRate (d : Datapath) : (setDp s d).limitRate = s.limitRate := rfl
@[simp] theorem setDp_mem (d : Datapath) : (setDp s d).mem = s.mem := rfl
@[simp] theorem setDp_busStores (d : Datapath) : (setDp s d).busStores = s.busStores := rfl
@[simp] theorem setDp_params (d : Datapath) : (setDp s d).params = s.params := rfl
@[simp] theorem setDp_cmdQ (d : Datapath) : (setDp s d).cmdQ = s.cmdQ := rfl
@[simp] theorem setDp_reqQ (d : Datapath) : (setDp s d).reqQ = s.reqQ := rfl
@[simp] theorem setDp_turns (d : Datapath) : (setDp s d).turns = s.turns := rfl
@[simp] theorem setDp_history (d : Datapath) : (setDp s d).history = s.history := rfl
@[simp] theorem setDp_dp (d : Datapath) : (setDp s d).dp = d := rfl
@[simp] theorem setDp_draws (d : Datapath) : (setDp s d).draws = s.draws := rfl
@[simp] theorem setDp_raced (d : Datapath) : (setDp s d).raced = s.raced := rfl

/-! ### landStores -/

@[simp] theorem landStores_chans : (landStores s).chans = s.chans := rfl
@[simp] theorem landStores_master : (landStores s).master = s.master := rfl
@[simp] theorem landStores_bias : (landStores s).bias = s.bias := rfl
@[simp] theorem landStores_buf0 : (landStores s).buf0 = s.buf0 := rfl
@[simp] theorem landStores_buf1 : (landStores s).buf1 = s.buf1 := rfl
@[simp] theorem landStores_wsel : (landStores s).wsel = s.wsel := rfl
@[simp] theorem landStores_wcur : (landStores s).wcur = s.wcur := rfl
@[simp] theorem landStores_cap : (landStores s).cap = s.cap := rfl
@[simp] theorem landStores_ready : (landStores s).ready = s.ready := rfl
@[simp] theorem landStores_swapPending : (landStores s).swapPending = s.swapPending := rfl
@[simp] theorem landStores_reqPhase : (landStores s).reqPhase = s.reqPhase := rfl
@[simp] theorem landStores_reqCount : (landStores s).reqCount = s.reqCount := rfl
@[simp] theorem landStores_fault : (landStores s).fault = s.fault := rfl
@[simp] theorem landStores_limitRate : (landStores s).limitRate = s.limitRate := rfl
@[simp] theorem landStores_mem : (landStores s).mem = storeAll s.mem (s.busStores.headD []) := rfl
@[simp] theorem landStores_busStores : (landStores s).busStores = s.busStores.tail := rfl
@[simp] theorem landStores_params : (landStores s).params = s.params := rfl
@[simp] theorem landStores_cmdQ : (landStores s).cmdQ = s.cmdQ := rfl
@[simp] theorem landStores_reqQ : (landStores s).reqQ = s.reqQ := rfl
@[simp] theorem landStores_turns : (landStores s).turns = s.turns := rfl
@[simp] theorem landStores_history : (landStores s).history = s.history := rfl
@[simp] theorem landStores_dp : (landStores s).dp = s.dp := rfl
@[simp] theorem landStores_draws : (landStores s).draws = s.draws := rfl
@[simp] theorem landStores_raced : (landStores s).raced = s.raced := rfl

/-! ### emit -/

@[simp] theorem emit_chans (e : PortEvent) : (emit e s).chans = s.chans := rfl
@[simp] theorem emit_master (e : PortEvent) : (emit e s).master = s.master := rfl
@[simp] theorem emit_bias (e : PortEvent) : (emit e s).bias = s.bias := rfl
@[simp] theorem emit_buf0 (e : PortEvent) : (emit e s).buf0 = s.buf0 := rfl
@[simp] theorem emit_buf1 (e : PortEvent) : (emit e s).buf1 = s.buf1 := rfl
@[simp] theorem emit_wsel (e : PortEvent) : (emit e s).wsel = s.wsel := rfl
@[simp] theorem emit_wcur (e : PortEvent) : (emit e s).wcur = s.wcur := rfl
@[simp] theorem emit_cap (e : PortEvent) : (emit e s).cap = s.cap := rfl
@[simp] theorem emit_ready (e : PortEvent) : (emit e s).ready = s.ready := rfl
@[simp] theorem emit_swapPending (e : PortEvent) : (emit e s).swapPending = s.swapPending := rfl
@[simp] theorem emit_reqPhase (e : PortEvent) : (emit e s).reqPhase = s.reqPhase := rfl
@[simp] theorem emit_reqCount (e : PortEvent) : (emit e s).reqCount = s.reqCount := rfl
@[simp] theorem emit_fault (e : PortEvent) : (emit e s).fault = s.fault := rfl
@[simp] theorem emit_limitRate (e : PortEvent) : (emit e s).limitRate = s.limitRate := rfl
@[simp] theorem emit_mem (e : PortEvent) : (emit e s).mem = s.mem := rfl
@[simp] theorem emit_busStores (e : PortEvent) : (emit e s).busStores = s.busStores := rfl
@[simp] theorem emit_params (e : PortEvent) : (emit e s).params = s.params := rfl
@[simp] theorem emit_cmdQ (e : PortEvent) : (emit e s).cmdQ = s.cmdQ := rfl
@[simp] theorem emit_reqQ (e : PortEvent) : (emit e s).reqQ = s.reqQ := rfl
@[simp] theorem emit_turns (e : PortEvent) : (emit e s).turns = s.turns := rfl
@[simp] theorem emit_history (e : PortEvent) : (emit e s).history = e :: s.history := rfl
@[simp] theorem emit_dp (e : PortEvent) : (emit e s).dp = s.dp := rfl
@[simp] theorem emit_draws (e : PortEvent) : (emit e s).draws = s.draws := rfl
@[simp] theorem emit_raced (e : PortEvent) : (emit e s).raced = s.raced := rfl

/-! ### readMem -/

@[simp] theorem readMem_chans (a : Word) (n : Nat) : (readMem a n s).2.chans = s.chans := rfl
@[simp] theorem readMem_master (a : Word) (n : Nat) : (readMem a n s).2.master = s.master := rfl
@[simp] theorem readMem_bias (a : Word) (n : Nat) : (readMem a n s).2.bias = s.bias := rfl
@[simp] theorem readMem_buf0 (a : Word) (n : Nat) : (readMem a n s).2.buf0 = s.buf0 := rfl
@[simp] theorem readMem_buf1 (a : Word) (n : Nat) : (readMem a n s).2.buf1 = s.buf1 := rfl
@[simp] theorem readMem_wsel (a : Word) (n : Nat) : (readMem a n s).2.wsel = s.wsel := rfl
@[simp] theorem readMem_wcur (a : Word) (n : Nat) : (readMem a n s).2.wcur = s.wcur := rfl
@[simp] theorem readMem_cap (a : Word) (n : Nat) : (readMem a n s).2.cap = s.cap := rfl
@[simp] theorem readMem_ready (a : Word) (n : Nat) : (readMem a n s).2.ready = s.ready := rfl
@[simp] theorem readMem_swapPending (a : Word) (n : Nat) : (readMem a n s).2.swapPending = s.swapPending := rfl
@[simp] theorem readMem_reqPhase (a : Word) (n : Nat) : (readMem a n s).2.reqPhase = s.reqPhase := rfl
@[simp] theorem readMem_reqCount (a : Word) (n : Nat) : (readMem a n s).2.reqCount = s.reqCount := rfl
@[simp] theorem readMem_fault (a : Word) (n : Nat) : (readMem a n s).2.fault = s.fault := rfl
@[simp] theorem readMem_limitRate (a : Word) (n : Nat) : (readMem a n s).2.limitRate = s.limitRate := rfl
@[simp] theorem readMem_mem (a : Word) (n : Nat) : (readMem a n s).2.mem = storeAll s.mem (s.busStores.headD []) := rfl
@[simp] theorem readMem_busStores (a : Word) (n : Nat) : (readMem a n s).2.busStores = s.busStores.tail := rfl
@[simp] theorem readMem_params (a : Word) (n : Nat) : (readMem a n s).2.params = s.params := rfl
@[simp] theorem readMem_cmdQ (a : Word) (n : Nat) : (readMem a n s).2.cmdQ = s.cmdQ := rfl
@[simp] theorem readMem_reqQ (a : Word) (n : Nat) : (readMem a n s).2.reqQ = s.reqQ := rfl
@[simp] theorem readMem_turns (a : Word) (n : Nat) : (readMem a n s).2.turns = s.turns := rfl
@[simp] theorem readMem_history (a : Word) (n : Nat) :
    (readMem a n s).2.history = .memRead s.params.memPriv a n (readMem a n s).1 :: s.history := rfl
@[simp] theorem readMem_dp (a : Word) (n : Nat) : (readMem a n s).2.dp = s.dp := rfl
@[simp] theorem readMem_draws (a : Word) (n : Nat) : (readMem a n s).2.draws = s.draws := rfl
@[simp] theorem readMem_raced (a : Word) (n : Nat) : (readMem a n s).2.raced = s.raced := rfl

/-! ### raiseFault -/

@[simp] theorem raiseFault_chans (f : FaultRecord) : (raiseFault f s).chans = s.chans := rfl
@[simp] theorem raiseFault_master (f : FaultRecord) : (raiseFault f s).master = s.master := rfl
@[simp] theorem raiseFault_bias (f : FaultRecord) : (raiseFault f s).bias = s.bias := rfl
@[simp] theorem raiseFault_buf0 (f : FaultRecord) : (raiseFault f s).buf0 = s.buf0 := rfl
@[simp] theorem raiseFault_buf1 (f : FaultRecord) : (raiseFault f s).buf1 = s.buf1 := rfl
@[simp] theorem raiseFault_wsel (f : FaultRecord) : (raiseFault f s).wsel = s.wsel := rfl
@[simp] theorem raiseFault_wcur (f : FaultRecord) : (raiseFault f s).wcur = s.wcur := rfl
@[simp] theorem raiseFault_cap (f : FaultRecord) : (raiseFault f s).cap = s.cap := rfl
@[simp] theorem raiseFault_ready (f : FaultRecord) : (raiseFault f s).ready = s.ready := rfl
@[simp] theorem raiseFault_swapPending (f : FaultRecord) : (raiseFault f s).swapPending = s.swapPending := rfl
@[simp] theorem raiseFault_reqPhase (f : FaultRecord) : (raiseFault f s).reqPhase = s.reqPhase := rfl
@[simp] theorem raiseFault_reqCount (f : FaultRecord) : (raiseFault f s).reqCount = s.reqCount := rfl
@[simp] theorem raiseFault_fault (f : FaultRecord) : (raiseFault f s).fault = some (s.fault.getD f) := rfl
@[simp] theorem raiseFault_limitRate (f : FaultRecord) : (raiseFault f s).limitRate = s.limitRate := rfl
@[simp] theorem raiseFault_mem (f : FaultRecord) : (raiseFault f s).mem = s.mem := rfl
@[simp] theorem raiseFault_busStores (f : FaultRecord) : (raiseFault f s).busStores = s.busStores := rfl
@[simp] theorem raiseFault_params (f : FaultRecord) : (raiseFault f s).params = s.params := rfl
@[simp] theorem raiseFault_cmdQ (f : FaultRecord) : (raiseFault f s).cmdQ = s.cmdQ := rfl
@[simp] theorem raiseFault_reqQ (f : FaultRecord) : (raiseFault f s).reqQ = s.reqQ := rfl
@[simp] theorem raiseFault_turns (f : FaultRecord) : (raiseFault f s).turns = s.turns := rfl
@[simp] theorem raiseFault_history (f : FaultRecord) : (raiseFault f s).history = s.history := rfl
@[simp] theorem raiseFault_dp (f : FaultRecord) : (raiseFault f s).dp = s.dp := rfl
@[simp] theorem raiseFault_draws (f : FaultRecord) : (raiseFault f s).draws = s.draws := rfl
@[simp] theorem raiseFault_raced (f : FaultRecord) : (raiseFault f s).raced = (s.raced || isRace f) := rfl

/-! ### swapBuffers -/

@[simp] theorem swapBuffers_chans : (swapBuffers s).chans = s.chans := rfl
@[simp] theorem swapBuffers_master : (swapBuffers s).master = s.master := rfl
@[simp] theorem swapBuffers_bias : (swapBuffers s).bias = s.bias := rfl
@[simp] theorem swapBuffers_buf0 : (swapBuffers s).buf0 = s.buf0 := rfl
@[simp] theorem swapBuffers_buf1 : (swapBuffers s).buf1 = s.buf1 := rfl
@[simp] theorem swapBuffers_wsel : (swapBuffers s).wsel = !s.wsel := rfl
@[simp] theorem swapBuffers_wcur : (swapBuffers s).wcur = 0 := rfl
@[simp] theorem swapBuffers_cap : (swapBuffers s).cap = s.cap := rfl
@[simp] theorem swapBuffers_ready : (swapBuffers s).ready = true := rfl
@[simp] theorem swapBuffers_swapPending : (swapBuffers s).swapPending = false := rfl
@[simp] theorem swapBuffers_reqPhase : (swapBuffers s).reqPhase = s.reqPhase := rfl
@[simp] theorem swapBuffers_reqCount : (swapBuffers s).reqCount = s.reqCount := rfl
@[simp] theorem swapBuffers_fault : (swapBuffers s).fault = s.fault := rfl
@[simp] theorem swapBuffers_limitRate : (swapBuffers s).limitRate = s.limitRate := rfl
@[simp] theorem swapBuffers_mem : (swapBuffers s).mem = s.mem := rfl
@[simp] theorem swapBuffers_busStores : (swapBuffers s).busStores = s.busStores := rfl
@[simp] theorem swapBuffers_params : (swapBuffers s).params = s.params := rfl
@[simp] theorem swapBuffers_cmdQ : (swapBuffers s).cmdQ = s.cmdQ := rfl
@[simp] theorem swapBuffers_reqQ : (swapBuffers s).reqQ = s.reqQ := rfl
@[simp] theorem swapBuffers_turns : (swapBuffers s).turns = s.turns := rfl
@[simp] theorem swapBuffers_history : (swapBuffers s).history = s.history := rfl
@[simp] theorem swapBuffers_dp : (swapBuffers s).dp = s.dp := rfl
@[simp] theorem swapBuffers_draws : (swapBuffers s).draws = s.draws := rfl
@[simp] theorem swapBuffers_raced : (swapBuffers s).raced = s.raced := rfl

/-! ### resizeTo -/

@[simp] theorem resizeTo_chans (n : Word) : (resizeTo n s).chans = s.chans := rfl
@[simp] theorem resizeTo_master (n : Word) : (resizeTo n s).master = s.master := rfl
@[simp] theorem resizeTo_bias (n : Word) : (resizeTo n s).bias = s.bias := rfl
@[simp] theorem resizeTo_buf0 (n : Word) : (resizeTo n s).buf0 = drawnFrames s.draws false n.toNat := rfl
@[simp] theorem resizeTo_buf1 (n : Word) : (resizeTo n s).buf1 = drawnFrames s.draws true n.toNat := rfl
@[simp] theorem resizeTo_wsel (n : Word) : (resizeTo n s).wsel = s.wsel := rfl
@[simp] theorem resizeTo_wcur (n : Word) : (resizeTo n s).wcur = 0 := rfl
@[simp] theorem resizeTo_cap (n : Word) : (resizeTo n s).cap = n.toNat := rfl
@[simp] theorem resizeTo_ready (n : Word) : (resizeTo n s).ready = s.ready := rfl
@[simp] theorem resizeTo_swapPending (n : Word) : (resizeTo n s).swapPending = s.swapPending := rfl
@[simp] theorem resizeTo_reqPhase (n : Word) : (resizeTo n s).reqPhase = s.reqPhase := rfl
@[simp] theorem resizeTo_reqCount (n : Word) : (resizeTo n s).reqCount = s.reqCount := rfl
@[simp] theorem resizeTo_fault (n : Word) : (resizeTo n s).fault = s.fault := rfl
@[simp] theorem resizeTo_limitRate (n : Word) : (resizeTo n s).limitRate = s.limitRate := rfl
@[simp] theorem resizeTo_mem (n : Word) : (resizeTo n s).mem = s.mem := rfl
@[simp] theorem resizeTo_busStores (n : Word) : (resizeTo n s).busStores = s.busStores := rfl
@[simp] theorem resizeTo_params (n : Word) : (resizeTo n s).params = s.params := rfl
@[simp] theorem resizeTo_cmdQ (n : Word) : (resizeTo n s).cmdQ = s.cmdQ := rfl
@[simp] theorem resizeTo_reqQ (n : Word) : (resizeTo n s).reqQ = s.reqQ := rfl
@[simp] theorem resizeTo_turns (n : Word) : (resizeTo n s).turns = s.turns := rfl
@[simp] theorem resizeTo_history (n : Word) : (resizeTo n s).history = s.history := rfl
@[simp] theorem resizeTo_dp (n : Word) : (resizeTo n s).dp = s.dp := rfl
@[simp] theorem resizeTo_draws (n : Word) : (resizeTo n s).draws = s.draws + 1 := rfl
@[simp] theorem resizeTo_raced (n : Word) : (resizeTo n s).raced = s.raced := rfl

/-! ### beginWait -/

@[simp] theorem beginWait_chans (n : Word) : (beginWait n s).chans = s.chans := rfl
@[simp] theorem beginWait_master (n : Word) : (beginWait n s).master = s.master := rfl
@[simp] theorem beginWait_bias (n : Word) : (beginWait n s).bias = s.bias := rfl
@[simp] theorem beginWait_buf0 (n : Word) : (beginWait n s).buf0 = s.buf0 := rfl
@[simp] theorem beginWait_buf1 (n : Word) : (beginWait n s).buf1 = s.buf1 := rfl
@[simp] theorem beginWait_wsel (n : Word) : (beginWait n s).wsel = s.wsel := rfl
@[simp] theorem beginWait_wcur (n : Word) : (beginWait n s).wcur = s.wcur := rfl
@[simp] theorem beginWait_cap (n : Word) : (beginWait n s).cap = s.cap := rfl
@[simp] theorem beginWait_ready (n : Word) : (beginWait n s).ready = s.ready := rfl
@[simp] theorem beginWait_swapPending (n : Word) : (beginWait n s).swapPending = s.swapPending := rfl
@[simp] theorem beginWait_reqPhase (n : Word) : (beginWait n s).reqPhase = .waiting := rfl
@[simp] theorem beginWait_reqCount (n : Word) : (beginWait n s).reqCount = n := rfl
@[simp] theorem beginWait_fault (n : Word) : (beginWait n s).fault = s.fault := rfl
@[simp] theorem beginWait_limitRate (n : Word) : (beginWait n s).limitRate = s.limitRate := rfl
@[simp] theorem beginWait_mem (n : Word) : (beginWait n s).mem = s.mem := rfl
@[simp] theorem beginWait_busStores (n : Word) : (beginWait n s).busStores = s.busStores := rfl
@[simp] theorem beginWait_params (n : Word) : (beginWait n s).params = s.params := rfl
@[simp] theorem beginWait_cmdQ (n : Word) : (beginWait n s).cmdQ = s.cmdQ := rfl
@[simp] theorem beginWait_reqQ (n : Word) : (beginWait n s).reqQ = s.reqQ := rfl
@[simp] theorem beginWait_turns (n : Word) : (beginWait n s).turns = s.turns := rfl
@[simp] theorem beginWait_history (n : Word) : (beginWait n s).history = s.history := rfl
@[simp] theorem beginWait_dp (n : Word) : (beginWait n s).dp = s.dp := rfl
@[simp] theorem beginWait_draws (n : Word) : (beginWait n s).draws = s.draws := rfl
@[simp] theorem beginWait_raced (n : Word) : (beginWait n s).raced = s.raced := rfl

/-! ### deliver -/

@[simp] theorem deliver_chans (l : List Frame) : (deliver l s).chans = s.chans := rfl
@[simp] theorem deliver_master (l : List Frame) : (deliver l s).master = s.master := rfl
@[simp] theorem deliver_bias (l : List Frame) : (deliver l s).bias = s.bias := rfl
@[simp] theorem deliver_buf0 (l : List Frame) : (deliver l s).buf0 = s.buf0 := rfl
@[simp] theorem deliver_buf1 (l : List Frame) : (deliver l s).buf1 = s.buf1 := rfl
@[simp] theorem deliver_wsel (l : List Frame) : (deliver l s).wsel = s.wsel := rfl
@[simp] theorem deliver_wcur (l : List Frame) : (deliver l s).wcur = s.wcur := rfl
@[simp] theorem deliver_cap (l : List Frame) : (deliver l s).cap = s.cap := rfl
@[simp] theorem deliver_ready (l : List Frame) : (deliver l s).ready = false := rfl
@[simp] theorem deliver_swapPending (l : List Frame) : (deliver l s).swapPending = s.swapPending := rfl
@[simp] theorem deliver_reqPhase (l : List Frame) : (deliver l s).reqPhase = .idle := rfl
@[simp] theorem deliver_reqCount (l : List Frame) : (deliver l s).reqCount = s.reqCount := rfl
@[simp] theorem deliver_fault (l : List Frame) : (deliver l s).fault = s.fault := rfl
@[simp] theorem deliver_limitRate (l : List Frame) : (deliver l s).limitRate = s.limitRate := rfl
@[simp] theorem deliver_mem (l : List Frame) : (deliver l s).mem = s.mem := rfl
@[simp] theorem deliver_busStores (l : List Frame) : (deliver l s).busStores = s.busStores := rfl
@[simp] theorem deliver_params (l : List Frame) : (deliver l s).params = s.params := rfl
@[simp] theorem deliver_cmdQ (l : List Frame) : (deliver l s).cmdQ = s.cmdQ := rfl
@[simp] theorem deliver_reqQ (l : List Frame) : (deliver l s).reqQ = s.reqQ := rfl
@[simp] theorem deliver_turns (l : List Frame) : (deliver l s).turns = s.turns := rfl
@[simp] theorem deliver_history (l : List Frame) : (deliver l s).history = .reqData l :: s.history := rfl
@[simp] theorem deliver_dp (l : List Frame) : (deliver l s).dp = s.dp := rfl
@[simp] theorem deliver_draws (l : List Frame) : (deliver l s).draws = s.draws := rfl
@[simp] theorem deliver_raced (l : List Frame) : (deliver l s).raced = s.raced := rfl

/-! ### resetBlock -/

@[simp] theorem resetBlock_chans : (resetBlock s).chans = Vector.replicate 16 (Channel.reset s.params.lfsrInit) := rfl
@[simp] theorem resetBlock_master : (resetBlock s).master = 0 := rfl
@[simp] theorem resetBlock_bias : (resetBlock s).bias = 0 := rfl
@[simp] theorem resetBlock_buf0 : (resetBlock s).buf0 = drawnFrames s.draws false s.params.capReset := rfl
@[simp] theorem resetBlock_buf1 : (resetBlock s).buf1 = drawnFrames s.draws true s.params.capReset := rfl
@[simp] theorem resetBlock_wsel : (resetBlock s).wsel = false := rfl
@[simp] theorem resetBlock_wcur : (resetBlock s).wcur = 0 := rfl
@[simp] theorem resetBlock_cap : (resetBlock s).cap = s.params.capReset := rfl
@[simp] theorem resetBlock_ready : (resetBlock s).ready = false := rfl
@[simp] theorem resetBlock_swapPending : (resetBlock s).swapPending = false := rfl
@[simp] theorem resetBlock_reqPhase : (resetBlock s).reqPhase = .idle := rfl
@[simp] theorem resetBlock_reqCount : (resetBlock s).reqCount = 0 := rfl
@[simp] theorem resetBlock_fault : (resetBlock s).fault = none := rfl
@[simp] theorem resetBlock_limitRate : (resetBlock s).limitRate = s.limitRate := rfl
@[simp] theorem resetBlock_mem : (resetBlock s).mem = s.mem := rfl
@[simp] theorem resetBlock_busStores : (resetBlock s).busStores = s.busStores := rfl
@[simp] theorem resetBlock_params : (resetBlock s).params = s.params := rfl
@[simp] theorem resetBlock_cmdQ : (resetBlock s).cmdQ = s.cmdQ := rfl
@[simp] theorem resetBlock_reqQ : (resetBlock s).reqQ = s.reqQ := rfl
@[simp] theorem resetBlock_turns : (resetBlock s).turns = s.turns := rfl
@[simp] theorem resetBlock_history : (resetBlock s).history = s.history := rfl
@[simp] theorem resetBlock_dp : (resetBlock s).dp = Datapath.idle := rfl
@[simp] theorem resetBlock_draws : (resetBlock s).draws = s.draws + 1 := rfl
@[simp] theorem resetBlock_raced : (resetBlock s).raced = false := rfl

/-! ### Reading after writing -/

@[simp] theorem getChan_setChan_same (c : Chan) (ch : Channel) : getChan (setChan s c ch) c = ch := by
  simp [getChan]

theorem getChan_setChan_ne (c d : Chan) (ch : Channel) (h : d ≠ c) : getChan (setChan s c ch) d = getChan s d := by
  have : c.val ≠ d.val := fun e => h (Fin.ext e.symm)
  simp [getChan, Vector.getElem_set_ne, this]

@[simp] theorem setChan_setChan (c : Chan) (ch ch' : Channel) : setChan (setChan s c ch) c ch' = setChan s c ch' := by
  simp [setChan]

@[simp] theorem setChan_getChan (c : Chan) : setChan s c (getChan s c) = s := by
  simp [setChan, getChan]

@[simp] theorem setDuty_eq (c : Chan) (v : BitVec 3) : setDuty c v s = setChan s c { getChan s c with dutyc := v } := rfl
@[simp] theorem setLfsr_eq (c : Chan) (v : Half) : setLfsr c v s = setChan s c { getChan s c with lfsr := v } := rfl
@[simp] theorem getChan_setDp (d : Datapath) (c : Chan) : getChan (setDp s d) c = getChan s c := rfl
@[simp] theorem getChan_emit (e : PortEvent) (c : Chan) : getChan (emit e s) c = getChan s c := rfl
@[simp] theorem getChan_landStores (c : Chan) : getChan (landStores s) c = getChan s c := rfl
@[simp] theorem getChan_readMem (a : Word) (n : Nat) (c : Chan) : getChan (readMem a n s).2 c = getChan s c := rfl
@[simp] theorem readMem_value (a : Word) (n : Nat) :
    (readMem a n s).1 = memValue (storeAll s.mem (s.busStores.headD [])) a n := rfl

/-- The channels right after RESET. -/
@[simp] theorem getChan_resetBlock (c : Chan) : getChan (resetBlock s) c = Channel.reset s.params.lfsrInit := by
  simp [getChan]

end Sys2Proof.Machine
end

