-- ==== Sys2Proof/Laws/Memory.lean ====
section
/-! SUPPORT. Sample memory: what a byte reads as after a store, and that every store keeps the canonical form. -/

namespace Sys2Proof.Machine

theorem memWfFrom_mono {m : Memory} {lo lo' : Nat} (hle : lo' ≤ lo) (h : memWfFrom lo m = true) :
    memWfFrom lo' m = true := by
  cases m with
  | nil => rfl
  | cons e m =>
    simp only [memWfFrom, Bool.and_eq_true, decide_eq_true_eq] at h ⊢
    exact ⟨⟨⟨hle.trans h.1.1.1, h.1.1.2⟩, h.1.2⟩, h.2⟩

/-- A byte below every listed address reads as an unlisted one. -/
theorem memGet_below {m : Memory} {lo a : Nat} (h : memWfFrom lo m = true) (ha : a < lo) :
    memGet m a = unlistedByte := by
  induction m generalizing lo with
  | nil => rfl
  | cons e m ih =>
    simp only [memWfFrom, Bool.and_eq_true, decide_eq_true_eq] at h
    simp only [memGet]
    rw [if_neg (by omega)]
    exact ih h.2 (by omega)

/-- The byte stored is the byte read. -/
theorem memGet_memPut_same {m : Memory} {lo : Nat} (a : Nat) (v : Byte) (h : memWfFrom lo m = true) :
    memGet (memPut m a v) a = v := by
  induction m generalizing lo with
  | nil => by_cases hv : v = unlistedByte <;> simp [memPut, memGet, hv]
  | cons e m ih =>
    obtain ⟨k, w⟩ := e
    simp only [memWfFrom, Bool.and_eq_true, decide_eq_true_eq] at h
    simp only [memPut]
    by_cases h1 : a < k
    · rw [if_pos h1]
      by_cases hv : v = unlistedByte
      · simp only [hv, if_true, memGet]
        rw [if_neg (by omega)]
        exact memGet_below h.2 (by omega)
      · simp [hv, memGet]
    · rw [if_neg h1]
      by_cases h2 : a = k
      · rw [if_pos h2]
        by_cases hv : v = unlistedByte
        · simp only [hv, if_true]
          exact memGet_below h.2 (by omega)
        · simp [hv, memGet]
      · rw [if_neg h2]
        simp only [memGet, if_neg h2]
        exact ih h.2

/-- Every other byte reads as before. -/
theorem memGet_memPut_ne {m : Memory} (a b : Nat) (v : Byte) (hb : b ≠ a) :
    memGet (memPut m a v) b = memGet m b := by
  induction m with
  | nil => by_cases hv : v = unlistedByte <;> simp [memPut, memGet, hv, hb]
  | cons e m ih =>
    obtain ⟨k, w⟩ := e
    simp only [memPut]
    by_cases h1 : a < k
    · by_cases hv : v = unlistedByte <;> simp [h1, hv, memGet, hb]
    · by_cases h2 : a = k
      · by_cases hv : v = unlistedByte <;> simp [h2, hv, memGet, h2 ▸ hb]
      · simp [h1, h2, memGet, ih]

theorem memPut_wfFrom {m : Memory} {lo : Nat} (a : Nat) (v : Byte) (h : memWfFrom lo m = true) (hlo : lo ≤ a)
    (ha : a < 2 ^ 32) : memWfFrom lo (memPut m a v) = true := by
  induction m generalizing lo with
  | nil => by_cases hv : v = unlistedByte <;> simp [memPut, memWfFrom, hv, hlo] ; omega
  | cons e m ih =>
    obtain ⟨k, w⟩ := e
    have h' := h
    simp only [memWfFrom, Bool.and_eq_true, decide_eq_true_eq] at h
    simp only [memPut]
    by_cases h1 : a < k
    · by_cases hv : v = unlistedByte
      · simpa [h1, hv] using h'
      · simp only [h1, hv, if_true, if_false, memWfFrom, Bool.and_eq_true, decide_eq_true_eq]
        exact ⟨⟨⟨hlo, ha⟩, hv⟩, ⟨⟨by omega, h.1.1.2⟩, h.1.2⟩, h.2⟩
    · by_cases h2 : a = k
      · subst h2
        by_cases hv : v = unlistedByte
        · simp only [lt_irrefl, hv, if_true, if_false]
          exact memWfFrom_mono (by omega) h.2
        · simp only [lt_irrefl, hv, if_true, if_false, memWfFrom, Bool.and_eq_true, decide_eq_true_eq]
          exact ⟨⟨⟨hlo, ha⟩, hv⟩, h.2⟩
      · simp only [h1, h2, if_false, memWfFrom, Bool.and_eq_true, decide_eq_true_eq]
        exact ⟨h.1, ih h.2 (by omega)⟩

/-- A store keeps the canonical form. -/
theorem memPut_wf {m : Memory} (a : Word) (v : Byte) (h : memWf m = true) : memWf (memPut m a.toNat v) = true :=
  memPut_wfFrom a.toNat v h (by omega) a.isLt

/-- Stores one after another keep the canonical form. -/
theorem storeAll_wf {m : Memory} (l : List (Word × Byte)) (h : memWf m = true) : memWf (storeAll m l) = true := by
  induction l generalizing m with
  | nil => exact h
  | cons e l ih => exact ih (memPut_wf e.1 e.2 h)

/-- A byte that no store of a list goes to reads as before. -/
theorem memGet_storeAll_ne {m : Memory} (l : List (Word × Byte)) (b : Nat) (h : ∀ e ∈ l, b ≠ e.1.toNat) :
    memGet (storeAll m l) b = memGet m b := by
  induction l generalizing m with
  | nil => rfl
  | cons e l ih =>
    rw [show storeAll m (e :: l) = storeAll (memPut m e.1.toNat e.2) l from rfl,
      ih fun x hx => h x (List.mem_cons_of_mem _ hx), memGet_memPut_ne _ _ _ (h e List.mem_cons_self)]

theorem foldl_storeAll_wf {m : Memory} (l : List (List (Word × Byte))) (h : memWf m = true) :
    memWf (l.foldl storeAll m) = true := by
  induction l generalizing m with
  | nil => exact h
  | cons e l ih => exact ih (storeAll_wf e h)

/-- The stores that land during a command keep the canonical form. -/
theorem landed_wf {s : State} (k : Nat) (h : memWf s.mem = true) : memWf (landed s k) = true := foldl_storeAll_wf _ h

@[simp] theorem landed_zero (s : State) : landed s 0 = s.mem := by simp [landed]

/-- Stores land one read after another. -/
theorem landed_add {s t : State} {n : Nat} (hm : t.mem = landed s n) (hb : t.busStores = s.busStores.drop n) (k : Nat) :
    landed t k = landed s (n + k) := by
  simp only [landed] at hm ⊢
  rw [hm, hb, List.take_add, List.foldl_append]

/-- What lands before one read. -/
theorem landed_one (s : State) : landed s 1 = storeAll s.mem (s.busStores.headD []) := by
  simp only [landed]
  cases s.busStores with
  | nil => rfl
  | cons e l => rfl

/-- The memory right after reset has the canonical form. -/
theorem reset_mem_wf : memWf State.reset.mem = true := rfl

end Sys2Proof.Machine
end

