-- ==== Sys2Proof/Laws/Ops.lean ====
section
/-! SUPPORT. What each shared operation can do, said once: the ports' waiting, the masked write, the clamp, the timer sum,
the generators' channels, the synchronizer's steps. -/

namespace Sys2Proof.Machine

/-! ### Waiting at a port -/

theorem whenAccepted_held {s : State} (h : s.swapPending = true) (run : State → State) : whenAccepted s run = s := by
  simp [whenAccepted, h]

theorem whenAccepted_run {s : State} (h : s.swapPending = false) (run : State → State) :
    whenAccepted s run = run s := by
  simp [whenAccepted, h]

theorem whenIdle_idle {s : State} (h : s.reqPhase = .idle) (run : State → State) : whenIdle s run = run s := by
  simp [whenIdle, h]

theorem whenIdle_busy {s : State} (h : s.reqPhase ≠ .idle) (run : State → State) : whenIdle s run = s := by
  unfold whenIdle
  split
  · exact absurd ‹_› h
  · rfl
  · rfl

/-! ### Values -/

theorem maskedWrite_eq {w : Nat} (reg g m v : BitVec w) :
    maskedWrite reg g m v = (reg &&& ~~~(m &&& g)) ||| (v &&& (m &&& g)) := rfl

/-- A bit outside the register's mask keeps its value. -/
theorem maskedWrite_outside {w : Nat} {g z : BitVec w} (hz : z &&& g = 0) (reg m v : BitVec w) :
    maskedWrite reg g m v &&& z = reg &&& z := by
  ext i hi
  have hb := congrArg (fun x => x.getLsbD i) hz
  simp only [BitVec.getLsbD_and] at hb
  simp only [maskedWrite, BitVec.getElem_and, BitVec.getElem_or, BitVec.getElem_not]
  rw [BitVec.getLsbD_eq_getElem hi, BitVec.getLsbD_eq_getElem hi] at hb
  cases hg : g[i] <;> cases hzz : z[i] <;> simp_all

theorem clamp_eq (v lo hi : Int) (h : lo ≤ hi) : clamp v lo hi = max lo (min hi v) := by
  unfold clamp
  split
  · omega
  · split <;> omega

theorem clamp_range (v : Int) {lo hi : Int} (h : lo ≤ hi) : lo ≤ clamp v lo hi ∧ clamp v lo hi ≤ hi := by
  rw [clamp_eq v lo hi h]
  omega

/-- The 17-bit sum: its low half and its carry. -/
theorem timerAdd_spec (a b : Half) :
    ((timerAdd a b).2 = true ∧ (timerAdd a b).1.toNat + 2 ^ 16 = a.toNat + b.toNat) ∨
      ((timerAdd a b).2 = false ∧ (timerAdd a b).1.toNat = a.toNat + b.toNat) := by
  have ha := a.isLt
  have hb := b.isLt
  by_cases h : 2 ^ 16 ≤ a.toNat + b.toNat
  · left
    refine ⟨by simpa [timerAdd] using h, ?_⟩
    simp only [timerAdd, BitVec.toNat_add]
    omega
  · right
    refine ⟨by simpa [timerAdd] using h, ?_⟩
    simp only [timerAdd, BitVec.toNat_add]
    omega

/-! ### Sub-steps of one kind of channel -/

theorem whenOwner_run {g : Generator} {c : Chan} {s : State} (h : genOf s.params c = g) (run : State → State) :
    whenOwner g c s run = run s := if_pos h

theorem whenOwner_other {g : Generator} {c : Chan} {s : State} (h : genOf s.params c ≠ g) (run : State → State) :
    whenOwner g c s run = s := if_neg h

/-! ### The synchronizer -/

/-- Everything `PUSH` can do (43_synchronizer.md R171, R172). -/
theorem pushFrame_cases (f : Frame) (s : State) :
    (s.cap = 0 ∧ pushFrame f s = s) ∨
      (s.cap ≠ 0 ∧ s.wcur + 1 ≠ s.cap ∧
        pushFrame f s = { writeFrame s s.wsel s.wcur f with wcur := s.wcur + 1 }) ∨
      (s.cap ≠ 0 ∧ s.wcur + 1 = s.cap ∧
        pushFrame f s = requestSwap { writeFrame s s.wsel s.wcur f with wcur := s.wcur + 1 }) := by
  have hw : (writeFrame s s.wsel s.wcur f).wcur = s.wcur := by unfold writeFrame setBuf; split <;> rfl
  have hc : (writeFrame s s.wsel s.wcur f).cap = s.cap := by unfold writeFrame setBuf; split <;> rfl
  by_cases h0 : s.cap = 0
  · exact .inl ⟨h0, by simp [pushFrame, h0]⟩
  · by_cases h1 : s.wcur + 1 = s.cap
    · exact .inr (.inr ⟨h0, h1, by simp [pushFrame, h0, hw, hc, h1]⟩)
    · exact .inr (.inl ⟨h0, h1, by simp [pushFrame, h0, hw, hc, h1]⟩)

/-- Everything `SWAP.REQ` can do (R173). -/
theorem requestSwap_cases (s : State) :
    (s.limitRate = true ∧ s.ready = true ∧ requestSwap s = { s with swapPending := true }) ∨
      ((s.limitRate = false ∨ s.ready = false) ∧ requestSwap s = swapBuffers s) := by
  unfold requestSwap
  cases hl : s.limitRate <;> cases hr : s.ready <;> simp

/-- Everything `REQ.START` can do in phase idle (R178, R179; 60_exceptions.md R234). -/
theorem startRequest_cases (n : Word) (s : State) :
    (n = 0 ∧ startRequest n s = raiseFault (.reqZero n) s) ∨
      (n ≠ 0 ∧ s.params.bufMax < n.toNat ∧ startRequest n s = raiseFault (.alloc n) s) ∨
      (n ≠ 0 ∧ n.toNat ≤ s.params.bufMax ∧ n.toNat = s.cap ∧ startRequest n s = beginWait n s) ∨
      (n ≠ 0 ∧ n.toNat ≤ s.params.bufMax ∧ n.toNat ≠ s.cap ∧ s.swapPending = true ∧
        startRequest n s = raiseFault (.resizeRace n) s) ∨
      (n ≠ 0 ∧ n.toNat ≤ s.params.bufMax ∧ n.toNat ≠ s.cap ∧ s.swapPending = false ∧
        startRequest n s = beginWait n (resizeTo n s)) := by
  by_cases h0 : n = 0
  · exact .inl ⟨h0, if_pos h0⟩
  · refine .inr ?_
    rw [show startRequest n s = _ from if_neg h0]
    by_cases h1 : s.params.bufMax < n.toNat
    · exact .inl ⟨h0, h1, if_pos h1⟩
    · refine .inr ?_
      rw [if_neg h1]
      have h1' := not_lt.mp h1
      by_cases h2 : n.toNat = s.cap
      · exact .inl ⟨h0, h1', h2, if_pos h2⟩
      · refine .inr ?_
        rw [if_neg h2]
        cases h3 : s.swapPending
        · exact .inr ⟨h0, h1', h2, rfl, rfl⟩
        · exact .inl ⟨h0, h1', h2, rfl, rfl⟩

end Sys2Proof.Machine
end

