-- ==== Sys2Proof/Laws/Channel.lean ====
section
/-! SUPPORT. What a channel's work touches: each operation of the channel engine keeps everything but its own channel, its
own generator and the read port. -/

namespace Sys2Proof.Machine

/-! ### The relations compose -/

theorem SameButChannels.refl (s : State) : SameButChannels s s := by
  constructor <;> rfl

theorem SameButChannels.trans {s t u : State} (h : SameButChannels s t) (k : SameButChannels t u) :
    SameButChannels s u := by
  cases h; cases k; constructor <;> simp_all

theorem BankKept.refl (g : Generator) (ch : Channel) : BankKept g ch ch :=
  ⟨rfl, rfl, rfl, rfl, .inl rfl, fun _ => rfl, fun _ => rfl⟩

theorem BankKept.trans {g : Generator} {a b c : Channel} (h : BankKept g a b) (k : BankKept g b c) : BankKept g a c := by
  refine ⟨k.sad.trans h.sad, k.tmr.trans h.tmr, k.pnt.trans h.pnt, k.len.trans h.len, ?_,
    fun hg => (k.dutyc hg).trans (h.dutyc hg), fun hg => (k.lfsr hg).trans (h.lfsr hg)⟩
  rcases h.cnt with h1 | h1 <;> rcases k.cnt with k1 | k1 <;> rw [k1, h1]
  · exact .inl rfl
  · exact .inr rfl
  · exact .inr rfl
  · exact .inr (by rw [BitVec.and_assoc, BitVec.and_self])

theorem OnlyChannel.refl (c : Chan) (s : State) : OnlyChannel c s s := ⟨.refl s, fun _ _ => rfl, .refl _ _⟩

theorem OnlyChannel.trans {c : Chan} {s t u : State} (h : OnlyChannel c s t) (k : OnlyChannel c t u) :
    OnlyChannel c s u :=
  ⟨h.rest.trans k.rest, fun d hd => (k.others d hd).trans (h.others d hd), h.bank.trans (h.rest.params ▸ k.bank)⟩

/-- No read: the ports, memory and what is under way to it as before. -/
theorem onlyReads_none {s t : State} (h : t.history = s.history) (hm : t.mem = s.mem) (hb : t.busStores = s.busStores) :
    OnlyReads 0 s t :=
  ⟨[], h, le_rfl, fun i e he => by simp at he, by simpa using hm, by simpa using hb⟩

theorem OnlyReads.refl (s : State) : OnlyReads 0 s s := onlyReads_none rfl rfl rfl

theorem OnlyReads.trans {m n : Nat} {s t u : State} (h : OnlyReads m s t) (k : OnlyReads n t u)
    (hp : t.params = s.params) : OnlyReads (m + n) s u := by
  obtain ⟨l, hl, hln, hle, hlm, hlb⟩ := h
  obtain ⟨l', hl', hln', hle', hlm', hlb'⟩ := k
  refine ⟨l ++ l', by simp [hl', hl], by simp; omega, ?_, ?_, ?_⟩
  · intro i e he
    by_cases hi : i < l.length
    · rw [List.getElem?_append_left hi] at he
      exact hle i e he
    · rw [List.getElem?_append_right (by omega)] at he
      obtain ⟨a, size, hx⟩ := hle' _ e he
      rw [landed_add hlm hlb, hp, show l.length + (i - l.length + 1) = i + 1 by omega] at hx
      exact ⟨a, size, hx⟩
  · rw [hlm', landed_add hlm hlb, List.length_append]
  · rw [hlb', hlb, List.drop_drop, List.length_append]

theorem OnlyReads.mono {m n : Nat} {s t : State} (h : OnlyReads m s t) (hmn : m ≤ n) : OnlyReads n s t := by
  obtain ⟨l, hl, hln, hrest⟩ := h
  exact ⟨l, hl, hln.trans hmn, hrest⟩

/-- What follows a run of reads and does not touch the ports or memory adds nothing. -/
theorem OnlyReads.congr {n : Nat} {s t u : State} (h : OnlyReads n s t) (hh : u.history = t.history) (hm : u.mem = t.mem)
    (hb : u.busStores = t.busStores) : OnlyReads n s u := by
  obtain ⟨l, hl, hln, hle, hlm, hlb⟩ := h
  exact ⟨l, hh.trans hl, hln, hle, hm.trans hlm, hb.trans hlb⟩

/-! ### One update -/

theorem onlyChannel_setChan {s : State} {c : Chan} {ch : Channel} (h : BankKept (genOf s.params c) (getChan s c) ch) :
    OnlyChannel c s (setChan s c ch) :=
  ⟨by constructor <;> rfl, fun d hd => getChan_setChan_ne s c d ch hd, by simpa using h⟩

theorem onlyChannel_readMem (c : Chan) (s : State) (a : Word) (n : Nat) : OnlyChannel c s (readMem a n s).2 :=
  ⟨by constructor <;> rfl, fun _ _ => rfl, .refl _ _⟩

theorem onlyReads_readMem (s : State) (a : Word) (n : Nat) : OnlyReads 1 s (readMem a n s).2 := by
  refine ⟨[.memRead s.params.memPriv a n (readMem a n s).1], rfl, le_rfl, ?_, ?_, ?_⟩
  · intro i e he
    cases i with
    | zero =>
      simp only [List.getElem?_cons_zero, Option.some.injEq] at he
      exact ⟨a, n, by rw [← he, landed_one]; rfl⟩
    | succ i => simp at he
  · exact (landed_one s).symm
  · simp

/-! ### The operations of the engine -/

theorem captureSnap_onlyChannel (c : Chan) (s : State) : OnlyChannel c s (captureSnap c s) := by
  unfold captureSnap
  dsimp only
  split
  · exact onlyChannel_setChan ⟨rfl, rfl, rfl, rfl, .inl rfl, fun _ => rfl, fun _ => rfl⟩
  · exact .refl c s

theorem captureSnap_ports (c : Chan) (s : State) :
    (captureSnap c s).history = s.history ∧ (captureSnap c s).mem = s.mem ∧ (captureSnap c s).busStores = s.busStores := by
  unfold captureSnap
  dsimp only
  split <;> exact ⟨rfl, rfl, rfl⟩

theorem decodeStep_onlyChannel (n : BitVec 4) (c : Chan) (s : State) : OnlyChannel c s (decodeStep n c s) :=
  onlyChannel_setChan ⟨rfl, rfl, rfl, rfl, .inl rfl, fun _ => rfl, fun _ => rfl⟩

theorem advance_onlyChannel (fmt : Format) (c : Chan) (s : State) : OnlyChannel c s (advance fmt c s) := by
  cases fmt with
  | pcm8 => exact onlyChannel_setChan ⟨rfl, rfl, rfl, rfl, .inl rfl, fun _ => rfl, fun _ => rfl⟩
  | pcm16 => exact onlyChannel_setChan ⟨rfl, rfl, rfl, rfl, .inl rfl, fun _ => rfl, fun _ => rfl⟩
  | adpcm =>
    exact ((captureSnap_onlyChannel c s).trans (onlyChannel_readMem c _ _ _)).trans (decodeStep_onlyChannel _ c _)
  | psg =>
    unfold advance
    dsimp only
    split
    · exact onlyChannel_setChan ⟨rfl, rfl, rfl, rfl, .inl rfl, fun h => absurd ‹_› h, fun _ => rfl⟩
    · exact onlyChannel_setChan ⟨rfl, rfl, rfl, rfl, .inl rfl, fun _ => rfl, fun h => absurd ‹_› h⟩
    · exact .refl c s

theorem advance_onlyReads (fmt : Format) (c : Chan) (s : State) : OnlyReads 1 s (advance fmt c s) := by
  cases fmt with
  | pcm8 => exact (onlyReads_none rfl rfl rfl).mono (by omega)
  | pcm16 => exact (onlyReads_none rfl rfl rfl).mono (by omega)
  | adpcm =>
    obtain ⟨h, hm, hb⟩ := captureSnap_ports c s
    have h2 := onlyReads_readMem (captureSnap c s) (getChan (captureSnap c s) c).ptr 1
    have h12 := (onlyReads_none h hm hb).trans h2 (captureSnap_onlyChannel c s).rest.params
    exact h12.congr rfl rfl rfl
  | psg =>
    unfold advance
    dsimp only
    split
    · exact (onlyReads_none rfl rfl rfl).mono (by omega)
    · exact (onlyReads_none rfl rfl rfl).mono (by omega)
    · exact (OnlyReads.refl s).mono (by omega)

theorem restoreSnap_onlyChannel (c : Chan) (s : State) : OnlyChannel c s (restoreSnap c s) :=
  onlyChannel_setChan ⟨rfl, rfl, rfl, rfl, .inl rfl, fun _ => rfl, fun _ => rfl⟩

theorem wrapToLoop_onlyChannel (fmt : Format) (c : Chan) (s : State) : OnlyChannel c s (wrapToLoop fmt c s) := by
  have h : OnlyChannel c s (setChan s c { getChan s c with ptr := loopStart (getChan s c) }) :=
    onlyChannel_setChan ⟨rfl, rfl, rfl, rfl, .inl rfl, fun _ => rfl, fun _ => rfl⟩
  cases fmt with
  | pcm8 => exact h
  | pcm16 => exact h
  | adpcm => exact h.trans (restoreSnap_onlyChannel c _)
  | psg => exact h

theorem stopChan_onlyChannel (c : Chan) (s : State) : OnlyChannel c s (stopChan c s) :=
  onlyChannel_setChan ⟨rfl, rfl, rfl, rfl, .inr rfl, fun _ => rfl, fun _ => rfl⟩

/-- The manual and the reserved loop mode stop the channel, or with `MANUAL_STOPS` false do nothing (00_scope.md R7). -/
theorem stopIfManualStops_cases (c : Chan) (s : State) :
    (s.params.manualStops = true ∧ stopIfManualStops c s = stopChan c s) ∨
      (s.params.manualStops = false ∧ stopIfManualStops c s = s) := by
  cases h : s.params.manualStops <;> simp [stopIfManualStops, h]

/-- Everything the end of data can do in a loop mode (40_channel_engine.md R112). -/
theorem atEnd_cases (fmt : Format) (c : Chan) (s : State) :
    atEnd fmt c s = stopChan c s ∨ atEnd fmt c s = wrapToLoop fmt c s ∨ atEnd fmt c s = s := by
  unfold atEnd
  split
  · rcases stopIfManualStops_cases c s with ⟨-, h⟩ | ⟨-, h⟩ <;> simp [h]
  · simp
  · simp
  · rcases stopIfManualStops_cases c s with ⟨-, h⟩ | ⟨-, h⟩ <;> simp [h]

theorem atEnd_onlyChannel (fmt : Format) (c : Chan) (s : State) : OnlyChannel c s (atEnd fmt c s) := by
  rcases atEnd_cases fmt c s with h | h | h <;> rw [h]
  · exact stopChan_onlyChannel c s
  · exact wrapToLoop_onlyChannel fmt c s
  · exact .refl c s

theorem atEnd_onlyReads (fmt : Format) (c : Chan) (s : State) : OnlyReads 0 s (atEnd fmt c s) := by
  rcases atEnd_cases fmt c s with h | h | h <;> rw [h]
  · exact onlyReads_none rfl rfl rfl
  · cases fmt <;> exact onlyReads_none rfl rfl rfl
  · exact .refl s

/-- Everything `END` can do (40_channel_engine.md R112). -/
theorem endOfData_cases (fmt : Format) (c : Chan) (s : State) :
    ((fmt = .psg ∨ (getChan s c).ptr ≠ endAddr (getChan s c)) ∧ endOfData fmt c s = s) ∨
      (fmt ≠ .psg ∧ (getChan s c).ptr = endAddr (getChan s c) ∧ endOfData fmt c s = atEnd fmt c s) := by
  cases fmt with
  | psg => exact .inl ⟨.inl rfl, rfl⟩
  | pcm8 | pcm16 | adpcm =>
    by_cases h : (getChan s c).ptr = endAddr (getChan s c)
    · exact .inr ⟨by decide, h, by simp [endOfData, h]⟩
    · exact .inl ⟨.inr h, by simp [endOfData, h]⟩

theorem endOfData_onlyChannel (fmt : Format) (c : Chan) (s : State) : OnlyChannel c s (endOfData fmt c s) := by
  rcases endOfData_cases fmt c s with ⟨-, h⟩ | ⟨-, -, h⟩ <;> rw [h]
  · exact .refl c s
  · exact atEnd_onlyChannel fmt c s

theorem endOfData_onlyReads (fmt : Format) (c : Chan) (s : State) : OnlyReads 0 s (endOfData fmt c s) := by
  rcases endOfData_cases fmt c s with ⟨-, h⟩ | ⟨-, -, h⟩ <;> rw [h]
  · exact .refl s
  · exact atEnd_onlyReads fmt c s

/-- One pass of the overflow loop: the reload, the advance, the end of data. -/
theorem overflowPass_onlyChannel (fmt : Format) (c : Chan) (t : Half) (s : State) :
    OnlyChannel c s (endOfData fmt c (advance fmt c (setChan s c { getChan s c with tcnt := t }))) := by
  have h : OnlyChannel c s (setChan s c { getChan s c with tcnt := t }) :=
    onlyChannel_setChan ⟨rfl, rfl, rfl, rfl, .inl rfl, fun _ => rfl, fun _ => rfl⟩
  exact (h.trans (advance_onlyChannel fmt c _)).trans (endOfData_onlyChannel fmt c _)

/-- An advance leaves the timer counter alone. -/
theorem advance_tcnt (fmt : Format) (c : Chan) (s : State) : (getChan (advance fmt c s) c).tcnt = (getChan s c).tcnt := by
  cases fmt with
  | pcm8 => simp [advance, advancePointer]
  | pcm16 => simp [advance, advancePointer]
  | adpcm =>
    simp only [advance, advanceAdpcm, decodeStep, captureSnap]
    split <;> simp [readMem, emit, landStores, getChan, setChan]
  | psg =>
    simp only [advance]
    split <;> simp [advancePulse, advanceNoise, advanceNone]

/-- So does the end of data. -/
theorem endOfData_tcnt (fmt : Format) (c : Chan) (s : State) :
    (getChan (endOfData fmt c s) c).tcnt = (getChan s c).tcnt := by
  rcases endOfData_cases fmt c s with ⟨-, h⟩ | ⟨-, -, h⟩ <;> rw [h]
  rcases atEnd_cases fmt c s with h | h | h <;> rw [h]
  · simp [stopChan]
  · cases fmt <;> simp [wrapToLoop, restoreSnap]

/-- After one pass of the overflow loop the counter is the reloaded one. -/
theorem overflowPass_tcnt (fmt : Format) (c : Chan) (t : Half) (s : State) :
    (getChan (endOfData fmt c (advance fmt c (setChan s c { getChan s c with tcnt := t }))) c).tcnt = t := by
  rw [endOfData_tcnt, advance_tcnt, getChan_setChan_same]

/-- A raw sample touches nothing but the read port. -/
theorem rawSample_onlyChannel (fmt : Format) (c : Chan) (s : State) : OnlyChannel c s (rawSample fmt c s).2 := by
  cases fmt with
  | pcm8 => exact onlyChannel_readMem c s _ _
  | pcm16 => exact onlyChannel_readMem c s _ _
  | adpcm => exact .refl c s
  | psg =>
    unfold rawSample
    dsimp only
    split <;> exact .refl c s

theorem rawSample_onlyReads (fmt : Format) (c : Chan) (s : State) : OnlyReads 1 s (rawSample fmt c s).2 := by
  cases fmt with
  | pcm8 => exact onlyReads_readMem s _ _
  | pcm16 => exact onlyReads_readMem s _ _
  | adpcm => exact (OnlyReads.refl s).mono (by omega)
  | psg =>
    unfold rawSample
    dsimp only
    split <;> exact (OnlyReads.refl s).mono (by omega)

end Sys2Proof.Machine
end

