-- ==== Sys2Proof/Laws/PerInstr.lean ====
section
/-! SUPPORT. Statements made per operation, as syntax. -/

namespace Sys2Proof.Laws

/-- An operation has an encoding exactly when it is no internal step (spec/opcode_table.json: "no encoding: internal
step"). -/
def EncodedForm.Statement (i : Instr) : Prop := (encode i).isSome = !i.isInternal

theorem EncodedForm.wrCnt (c : Chan) (mask value : Word) : EncodedForm.Statement (.wrCnt c mask value) := rfl
theorem EncodedForm.wrSad (c : Chan) (mask value : Word) : EncodedForm.Statement (.wrSad c mask value) := rfl
theorem EncodedForm.wrTmr (c : Chan) (mask value : Word) : EncodedForm.Statement (.wrTmr c mask value) := rfl
theorem EncodedForm.wrPnt (c : Chan) (mask value : Word) : EncodedForm.Statement (.wrPnt c mask value) := rfl
theorem EncodedForm.wrLen (c : Chan) (mask value : Word) : EncodedForm.Statement (.wrLen c mask value) := rfl
theorem EncodedForm.wrMaster (mask value : Word) : EncodedForm.Statement (.wrMaster mask value) := rfl
theorem EncodedForm.wrBias (mask value : Word) : EncodedForm.Statement (.wrBias mask value) := rfl
theorem EncodedForm.tick : EncodedForm.Statement (.tick) := rfl
theorem EncodedForm.rdCnt (c : Chan) : EncodedForm.Statement (.rdCnt c) := rfl
theorem EncodedForm.rdSad (c : Chan) : EncodedForm.Statement (.rdSad c) := rfl
theorem EncodedForm.rdTmr (c : Chan) : EncodedForm.Statement (.rdTmr c) := rfl
theorem EncodedForm.rdPnt (c : Chan) : EncodedForm.Statement (.rdPnt c) := rfl
theorem EncodedForm.rdLen (c : Chan) : EncodedForm.Statement (.rdLen c) := rfl
theorem EncodedForm.rdMaster : EncodedForm.Statement (.rdMaster) := rfl
theorem EncodedForm.rdBias : EncodedForm.Statement (.rdBias) := rfl
theorem EncodedForm.reservedFx (code : Byte) : EncodedForm.Statement (.reservedFx code) := rfl
theorem EncodedForm.req (count : Word) : EncodedForm.Statement (.req count) := rfl
theorem EncodedForm.nib0 (c : Chan) : EncodedForm.Statement (.nib0 c) := rfl
theorem EncodedForm.nib1 (c : Chan) : EncodedForm.Statement (.nib1 c) := rfl
theorem EncodedForm.nib2 (c : Chan) : EncodedForm.Statement (.nib2 c) := rfl
theorem EncodedForm.nib3 (c : Chan) : EncodedForm.Statement (.nib3 c) := rfl
theorem EncodedForm.nib4 (c : Chan) : EncodedForm.Statement (.nib4 c) := rfl
theorem EncodedForm.nib5 (c : Chan) : EncodedForm.Statement (.nib5 c) := rfl
theorem EncodedForm.nib6 (c : Chan) : EncodedForm.Statement (.nib6 c) := rfl
theorem EncodedForm.nib7 (c : Chan) : EncodedForm.Statement (.nib7 c) := rfl
theorem EncodedForm.nib8 (c : Chan) : EncodedForm.Statement (.nib8 c) := rfl
theorem EncodedForm.nib9 (c : Chan) : EncodedForm.Statement (.nib9 c) := rfl
theorem EncodedForm.nibA (c : Chan) : EncodedForm.Statement (.nibA c) := rfl
theorem EncodedForm.nibB (c : Chan) : EncodedForm.Statement (.nibB c) := rfl
theorem EncodedForm.nibC (c : Chan) : EncodedForm.Statement (.nibC c) := rfl
theorem EncodedForm.nibD (c : Chan) : EncodedForm.Statement (.nibD c) := rfl
theorem EncodedForm.nibE (c : Chan) : EncodedForm.Statement (.nibE c) := rfl
theorem EncodedForm.nibF (c : Chan) : EncodedForm.Statement (.nibF c) := rfl
theorem EncodedForm.formatPcm8 (c : Chan) : EncodedForm.Statement (.formatPcm8 c) := rfl
theorem EncodedForm.formatPcm16 (c : Chan) : EncodedForm.Statement (.formatPcm16 c) := rfl
theorem EncodedForm.formatAdpcm (c : Chan) : EncodedForm.Statement (.formatAdpcm c) := rfl
theorem EncodedForm.formatPsg (c : Chan) : EncodedForm.Statement (.formatPsg c) := rfl
theorem EncodedForm.repeatManual (c : Chan) : EncodedForm.Statement (.repeatManual c) := rfl
theorem EncodedForm.repeatLoop (c : Chan) : EncodedForm.Statement (.repeatLoop c) := rfl
theorem EncodedForm.repeatOneshot (c : Chan) : EncodedForm.Statement (.repeatOneshot c) := rfl
theorem EncodedForm.repeatReserved (c : Chan) : EncodedForm.Statement (.repeatReserved c) := rfl
theorem EncodedForm.rawPcm8 (c : Chan) : EncodedForm.Statement (.rawPcm8 c) := rfl
theorem EncodedForm.rawPcm16 (c : Chan) : EncodedForm.Statement (.rawPcm16 c) := rfl
theorem EncodedForm.rawAdpcm (c : Chan) : EncodedForm.Statement (.rawAdpcm c) := rfl
theorem EncodedForm.rawPulse (c : Chan) : EncodedForm.Statement (.rawPulse c) := rfl
theorem EncodedForm.rawNoise (c : Chan) : EncodedForm.Statement (.rawNoise c) := rfl
theorem EncodedForm.rawNone (c : Chan) : EncodedForm.Statement (.rawNone c) := rfl
theorem EncodedForm.timer (c : Chan) : EncodedForm.Statement (.timer c) := rfl
theorem EncodedForm.advPcm8 (c : Chan) : EncodedForm.Statement (.advPcm8 c) := rfl
theorem EncodedForm.advPcm16 (c : Chan) : EncodedForm.Statement (.advPcm16 c) := rfl
theorem EncodedForm.advPulse (c : Chan) : EncodedForm.Statement (.advPulse c) := rfl
theorem EncodedForm.advNoise (c : Chan) : EncodedForm.Statement (.advNoise c) := rfl
theorem EncodedForm.advAdpcm (c : Chan) : EncodedForm.Statement (.advAdpcm c) := rfl
theorem EncodedForm.advNone (c : Chan) : EncodedForm.Statement (.advNone c) := rfl
theorem EncodedForm.endCheck (c : Chan) : EncodedForm.Statement (.endCheck c) := rfl
theorem EncodedForm.snapCapture (c : Chan) : EncodedForm.Statement (.snapCapture c) := rfl
theorem EncodedForm.snapRestore (c : Chan) : EncodedForm.Statement (.snapRestore c) := rfl
theorem EncodedForm.volume (c : Chan) : EncodedForm.Statement (.volume c) := rfl
theorem EncodedForm.pan (c : Chan) : EncodedForm.Statement (.pan c) := rfl
theorem EncodedForm.mixMaster : EncodedForm.Statement (.mixMaster) := rfl
theorem EncodedForm.mixBias : EncodedForm.Statement (.mixBias) := rfl
theorem EncodedForm.mixClip : EncodedForm.Statement (.mixClip) := rfl
theorem EncodedForm.mixRecentre : EncodedForm.Statement (.mixRecentre) := rfl
theorem EncodedForm.mixPack : EncodedForm.Statement (.mixPack) := rfl
theorem EncodedForm.push (frame : Frame) : EncodedForm.Statement (.push frame) := rfl
theorem EncodedForm.swapReq : EncodedForm.Statement (.swapReq) := rfl
theorem EncodedForm.swap : EncodedForm.Statement (.swap) := rfl
theorem EncodedForm.swapRelease : EncodedForm.Statement (.swapRelease) := rfl
theorem EncodedForm.reqStart (count : Word) : EncodedForm.Statement (.reqStart count) := rfl
theorem EncodedForm.resize (count : Word) : EncodedForm.Statement (.resize count) := rfl
theorem EncodedForm.reqTake : EncodedForm.Statement (.reqTake) := rfl
theorem EncodedForm.reqExpire : EncodedForm.Statement (.reqExpire) := rfl
theorem EncodedForm.reqFallback : EncodedForm.Statement (.reqFallback) := rfl
theorem EncodedForm.reload (c : Chan) : EncodedForm.Statement (.reload c) := rfl
theorem EncodedForm.startAdpcm (c : Chan) : EncodedForm.Statement (.startAdpcm c) := rfl
theorem EncodedForm.reset : EncodedForm.Statement (.reset) := rfl

end Sys2Proof.Laws
end

