-- ==== Sys2Proof/Laws/Steps.lean ====
section
/-! SUPPORT. What each shared operation of the register bank, the timer, the consumer and the scheduler can do, said once
as a case analysis: cite these instead of unfolding the operation. -/

namespace Sys2Proof.Machine

/-! ### Faults -/

/-- The record after `raise` holds the label raised, or the one it held already (60_exceptions.md R233). -/
theorem raiseFault_cases (f : FaultRecord) (s : State) :
    (s.fault = none ∧ raiseFault f s = { s with fault := some f, raced := s.raced || isRace f }) ∨
      (∃ g, s.fault = some g ∧ raiseFault f s = { s with raced := s.raced || isRace f }) := by
  cases h : s.fault with
  | none => exact .inl ⟨rfl, by simp [raiseFault, h]⟩
  | some g => exact .inr ⟨g, rfl, by simp [raiseFault, h]⟩

/-! ### Register bank -/

/-- Everything the restart of a generator can do (44_register_bank.md R203). -/
theorem restartGenerator_cases (c : Chan) (s : State) :
    (s.params.psgRestart = true ∧ genOf s.params c = .pulse ∧ restartGenerator c s = setDuty c 0 s) ∨
      (s.params.psgRestart = true ∧ genOf s.params c = .noise ∧ restartGenerator c s = setLfsr c s.params.lfsrInit s) ∨
      ((s.params.psgRestart = false ∨ genOf s.params c = .silent) ∧ restartGenerator c s = s) := by
  cases h : s.params.psgRestart <;> cases h' : genOf s.params c <;> simp [restartGenerator, h, h']

/-- Everything `RELOAD` can do (R203). -/
theorem reloadChan_cases (c : Chan) (s : State) :
    let fmt := formatOf s.params (getChan s c).cnt
    let s1 := setChan s c { getChan s c with ptr := (getChan s c).sad, tcnt := (getChan s c).tmr }
    ((fmt = .pcm8 ∨ fmt = .pcm16) ∧ reloadChan c s = s1) ∨
      (fmt = .adpcm ∧ reloadChan c s = loadHeader c s1) ∨
      (fmt = .psg ∧ reloadChan c s = restartGenerator c s1) := by
  cases h : formatOf s.params (getChan s c).cnt <;> simp [reloadChan, h]

/-- Everything the masked write of `CNT` can do (R202). -/
theorem writeCnt_cases (c : Chan) (m v : Word) (s : State) :
    let new := maskedWrite (getChan s c).cnt s.params.masks.cnt m v
    let s1 := setChan s c { getChan s c with cnt := new }
    (enableEdge (getChan s c).cnt new = true ∧ writeCnt c m v s = reloadChan c s1) ∨
      (enableEdge (getChan s c).cnt new = false ∧ writeCnt c m v s = s1) := by
  cases h : enableEdge (getChan s c).cnt (maskedWrite (getChan s c).cnt s.params.masks.cnt m v) <;> simp [writeCnt, h]

/-! ### Timer -/

/-- Everything `TIMER` can do (40_channel_engine.md R104, R105). -/
theorem timerStep_cases (fmt : Format) (c : Chan) (s : State) :
    let sum := timerAdd (getChan s c).tcnt tickInc
    let s1 := setChan s c { getChan s c with tcnt := sum.1 }
    (sum.2 = false ∧ timerStep fmt c s = s1) ∨
      (sum.2 = true ∧ timerStep fmt c s = overflowLoop fmt c timerPasses s1) := by
  cases h : (timerAdd (getChan s c).tcnt tickInc).2 <;> simp [timerStep, h]

/-- One pass of the overflow loop, and whether there is another (R105). -/
theorem overflowLoop_succ (fmt : Format) (c : Chan) (n : Nat) (s : State) :
    let sum := timerAdd (getChan s c).tcnt (getChan s c).tmr
    let s1 := endOfData fmt c (advance fmt c (setChan s c { getChan s c with tcnt := sum.1 }))
    overflowLoop fmt c (n + 1) s =
      if sum.2 && cntEnabled (getChan s1 c).cnt then overflowLoop fmt c n s1 else s1 := rfl

/-- One channel's part of a TICK: nothing, or its work and its contributions (R100, R106). -/
theorem tickChan_cases (t : TickState) (c : Chan) :
    (cntEnabled (getChan t.st c).cnt = false ∧ tickChan t c = t) ∨
      (cntEnabled (getChan t.st c).cnt = true ∧
        (tickChan t c).st = (channelWork (formatOf t.st.params (getChan t.st c).cnt) c t.st).2) := by
  cases h : cntEnabled (getChan t.st c).cnt
  · exact .inl ⟨rfl, by simp [tickChan, h]⟩
  · exact .inr ⟨rfl, by simp [tickChan, h]⟩

/-! ### Consumer -/

/-- Everything `SWAP_RELEASE` can do (43_synchronizer.md R176). -/
theorem releaseSwap_cases (s : State) :
    (s.swapPending = true ∧ s.ready = false ∧ releaseSwap s = swapBuffers s) ∨
      (¬(s.swapPending = true ∧ s.ready = false) ∧ releaseSwap s = s) := by
  cases h : s.swapPending <;> cases h' : s.ready <;> simp [releaseSwap, h, h']

/-- Everything `RESIZE` can do (R179). -/
theorem resizeOrRace_cases (n : Word) (s : State) :
    (s.swapPending = true ∧ resizeOrRace n s = raiseFault (.resizeRace n) s) ∨
      (s.swapPending = false ∧ resizeOrRace n s = resizeTo n s) := by
  cases h : s.swapPending <;> simp [resizeOrRace, h]

/-- Everything `REQ.TAKE` can do (R181). -/
theorem takeFrames_cases (s : State) :
    (s.reqPhase = .waiting ∧ s.ready = true ∧ takeFrames s = deliver (readyFrames s) s) ∨
      (¬(s.reqPhase = .waiting ∧ s.ready = true) ∧ takeFrames s = s) := by
  cases h : s.reqPhase <;> cases h' : s.ready <;> simp [takeFrames, h, h']

/-- Everything `REQ.EXPIRE` can do (R182). -/
theorem expireWait_cases (s : State) :
    (s.reqPhase = .waiting ∧ s.ready = false ∧ expireWait s = { s with reqPhase := .expired }) ∨
      (¬(s.reqPhase = .waiting ∧ s.ready = false) ∧ expireWait s = s) := by
  cases h : s.reqPhase <;> cases h' : s.ready <;> simp [expireWait, h, h']

/-- Everything `REQ.FALLBACK` can do (R183). -/
theorem fallBack_cases (s : State) :
    (s.reqPhase = .expired ∧ fallBack s = deliver (repeatedFrames s) s) ∨
      (s.reqPhase ≠ .expired ∧ fallBack s = s) := by
  cases h : s.reqPhase <;> simp [fallBack, h]

/-! ### The scheduler -/

/-- Everything a step that answers a next state can have been, by the turn it took. -/
theorem step_cases {s t : State} (h : step s = .next t) :
    (s.turns = [] ∧ t = s) ∨
      ∃ a ts, s.turns = a :: ts ∧
        ((a = .producer ∧ s.raced = false ∧ producerTurn { s with turns := ts } = .next t) ∨
          (a = .consumer ∧ s.raced = false ∧ consumerTurn false { s with turns := ts } = .next t) ∨
          (a = .deadline ∧ s.raced = false ∧ consumerTurn true { s with turns := ts } = .next t) ∨
          (∃ l, a = .limitRate l ∧ t = { s with turns := ts, limitRate := l }) ∨
          (∃ x v, a = .poke x v ∧ t = { s with turns := ts, mem := memPut s.mem x.toNat v }) ∨
          (a = .reset ∧ t = resetBlock { s with turns := ts })) := by
  cases hts : s.turns with
  | nil =>
    rw [step, hts] at h
    exact .inl ⟨rfl, (Host.Outcome.next.inj h).symm⟩
  | cons a ts =>
    rw [step, hts] at h
    refine .inr ⟨a, ts, rfl, ?_⟩
    cases a with
    | limitRate l => exact .inr (.inr (.inr (.inl ⟨l, rfl, (Host.Outcome.next.inj h).symm⟩)))
    | poke x v => exact .inr (.inr (.inr (.inr (.inl ⟨x, v, rfl, (Host.Outcome.next.inj h).symm⟩))))
    | reset => exact .inr (.inr (.inr (.inr (.inr ⟨rfl, (Host.Outcome.next.inj h).symm⟩))))
    | producer | consumer | deadline =>
      simp only [takeTurn, agentTurn] at h
      cases hr : s.raced <;> simp_all

end Sys2Proof.Machine
end

