-- ==== Sys2Proof/Tests/Slice0.lean ====
section
/-! SUPPORT. Tests: the well-formedness smoke test, one written-out word for each encoded operation, at most two small
tests of one operation each with expected values from 95_test_vectors.md (the vector is named in the comment) or worked
out by hand from the rule named, and, for every statement with hypotheses, a state and operands that meet them. -/

namespace Sys2Proof.Machine.Tests

/-! ### Helpers -/

/-- The state an operation answers with. -/
def after (i : Instr) (s : State) : State :=
  match exec i s with
  | .next t => t
  | .fault _ => s
  | .refused _ => s

/-- A channel right after reset. -/
def blank : Channel := Channel.reset 0x7FFF

/-- The reset state with one channel's registers. -/
def one (c : Chan) (ch : Channel) : State := setChan State.reset c ch

/-- Channel `c` after an operation. -/
def chanAfter (i : Instr) (s : State) (c : Chan) : Channel := getChan (after i s) c

/-- The latches after an operation. -/
def dpAfter (i : Instr) (s : State) : Datapath := (after i s).dp

/-- What `cmd_rdata` carried in an operation, if it was the last thing. -/
def rdataAfter (i : Instr) (s : State) : Option PortEvent := (after i s).history.head?

/-- The reset state with two-frame buffers that hold 1, 2 and 3, 4. -/
def twoFrames : State := { State.reset with cap := 2, buf0 := [1, 2], buf1 := [3, 4] }

/-- The channel of S1: PCM8, one-shot, full volume, one read a TICK. -/
def toneChan : Channel :=
  { blank with cnt := 0x9040007F, sad := 0x100, tmr := 0xFE00, len := 1, ptr := 0x100, tcnt := 0xFE00 }

/-! ### Well-formedness: the one check refuses an ill-formed operation -/

theorem test_wf_refuses_a_listed_code : (Instr.reservedFx 0x00).wf = false ∧ (Instr.reservedFx 0x50).wf = false ∧
    (Instr.reservedFx 0xEF).wf = true ∧ (Instr.reservedFx 0xF0).wf = true := by decide

theorem test_wf_accepts_others : (Instr.wrCnt 15 0xFFFFFFFF 0xFFFFFFFF).wf = true ∧ Instr.tick.wf = true ∧
    (Instr.req 0).wf = true := by decide

/-! ### Decoding: words written out from 30_encoding.md R86 to R89, R82, R71 -/

/-- The writes; the words of B1 to B7 (95_test_vectors.md). -/
theorem test_decode_writes :
    decode (.command 0x00FFFFFFFFFFFFFFFF) = .wrCnt 0 0xFFFFFFFF 0xFFFFFFFF ∧
    decode (.command 0x11FFFFFFFF02000100) = .wrSad 1 0xFFFFFFFF 0x02000100 ∧
    decode (.command 0x22000000FF12345678) = .wrTmr 2 0x000000FF 0x12345678 ∧
    decode (.command 0x31FFFF00F0ABCDABCD) = .wrPnt 1 0xFFFF00F0 0xABCDABCD ∧
    decode (.command 0x4FFFFFFFFFFFC00001) = .wrLen 15 0xFFFFFFFF 0xFFC00001 ∧
    decode (.command 0x50FFFFFFFF0000007F) = .wrMaster 0xFFFFFFFF 0x0000007F ∧
    decode (.command 0x600000000FFFFFFFFA) = .wrBias 0x0000000F 0xFFFFFFFA := by decide

/-- The reads and `TICK`; the ignored bits are ones in some of them (R86). -/
theorem test_decode_reads :
    decode (.command 0x700000000000000000) = .tick ∧ decode (.command 0x70FFFFFFFFFFFFFFFF) = .tick ∧
    decode (.command 0x8F0000000000000000) = .rdCnt 15 ∧ decode (.command 0x97FFFFFFFFFFFFFFFF) = .rdSad 7 ∧
    decode (.command 0xA20000000000000000) = .rdTmr 2 ∧ decode (.command 0xB80000000000000000) = .rdPnt 8 ∧
    decode (.command 0xC00000000000000000) = .rdLen 0 ∧ decode (.command 0xD00000000000000000) = .rdMaster ∧
    decode (.command 0xE00000000000000000) = .rdBias := by decide

/-- The codes of R89 at the ends of their ranges, and a request. -/
theorem test_decode_reserved :
    decode (.command 0x510000000000000000) = .reservedFx 0x51 ∧ decode (.command 0x6F0000000000000000) = .reservedFx 0x6F ∧
    decode (.command 0x710000000000000000) = .reservedFx 0x71 ∧ decode (.command 0xDF0000000000000000) = .reservedFx 0xDF ∧
    decode (.command 0xE10000000000000000) = .reservedFx 0xE1 ∧ decode (.command 0xF00000000000000000) = .reservedFx 0xF0 ∧
    decode (.command 0xFF0000000000000000) = .reservedFx 0xFF ∧ decode (.request 0x00000100) = .req 256 := by decide

theorem test_decode_nibbles :
    decode (.nibble 3 0x0) = .nib0 3 ∧ decode (.nibble 3 0x1) = .nib1 3 ∧ decode (.nibble 3 0x2) = .nib2 3 ∧
    decode (.nibble 3 0x3) = .nib3 3 ∧ decode (.nibble 3 0x4) = .nib4 3 ∧ decode (.nibble 3 0x5) = .nib5 3 ∧
    decode (.nibble 3 0x6) = .nib6 3 ∧ decode (.nibble 3 0x7) = .nib7 3 ∧ decode (.nibble 3 0x8) = .nib8 3 ∧
    decode (.nibble 3 0x9) = .nib9 3 ∧ decode (.nibble 3 0xA) = .nibA 3 ∧ decode (.nibble 3 0xB) = .nibB 3 ∧
    decode (.nibble 3 0xC) = .nibC 3 ∧ decode (.nibble 3 0xD) = .nibD 3 ∧ decode (.nibble 3 0xE) = .nibE 3 ∧
    decode (.nibble 3 0xF) = .nibF 3 := by decide

/-- Control register values of the vectors: E17 to E20, P2, P5, P3. -/
theorem test_decode_fields :
    decode (.formatField 0 0x9040007F) = .formatPcm8 0 ∧ decode (.formatField 2 0xA8200140) = .formatPcm16 2 ∧
    decode (.formatField 1 0xC800007F) = .formatAdpcm 1 ∧ decode (.formatField 8 0xE500007F) = .formatPsg 8 ∧
    decode (.repeatField 0 0x8040007F) = .repeatManual 0 ∧ decode (.repeatField 1 0xC800007F) = .repeatLoop 1 ∧
    decode (.repeatField 0 0x9040007F) = .repeatOneshot 0 ∧ decode (.repeatField 0 0x9840007F) = .repeatReserved 0 := by
  decide

/-- Bytes of a port: the table's order, and the wrong lengths rejected by name. -/
theorem test_decode_bytes :
    (decodeBytes .cmd [0x22, 0xFF, 0, 0, 0, 0x78, 0x56, 0x34, 0x12]).toOption = some (.wrTmr 2 0xFF 0x12345678) ∧
    (decodeBytes .req [0x20, 0, 0, 0]).toOption = some (.req 32) ∧
    decodeTableWord 8 0x70 = some .tick ∧ decodeTableWord 32 8 = some (.req 8) ∧ decodeTableWord 12 0 = none := by
  decide

theorem test_decode_bytes_rejects :
    decodeBytes .cmd [] = .error (.shortCommand 0) ∧ decodeBytes .req [1, 2, 3] = .error (.shortRequest 3) ∧
    decodeBytes .req [1, 2, 3, 4, 5] = .error (.longRequest 5) ∧
    decodeBytes .cmd [1, 2, 3, 4, 5, 6, 7, 8, 9, 10] = .error (.longCommand 10) := by
  refine ⟨?_, ?_, ?_, ?_⟩ <;> rfl

/-! ### Register bank: vectors B1 to B20 -/

/-- B1: the mask, and the edge in format 3 on channel 0. -/
theorem test_wrCnt_mask :
    (chanAfter (.wrCnt 0 0xFFFFFFFF 0xFFFFFFFF) (one 0 { blank with sad := 0x40, tmr := 0xF000 }) 0) =
      { blank with cnt := 0xFF7F837F, sad := 0x40, tmr := 0xF000, ptr := 0x40, tcnt := 0xF000 } := by
  decide

/-- B12: bit 31 is not in the mask, so there is no edge. -/
theorem test_wrCnt_no_edge :
    (chanAfter (.wrCnt 5 0x0000007F 0x80000040) (one 5 { blank with sad := 0x02000100, tmr := 0xFE00 }) 5) =
      { blank with cnt := 0x00000040, sad := 0x02000100, tmr := 0xFE00 } := by decide

/-- B2. -/
theorem test_wrSad : (chanAfter (.wrSad 1 0xFFFFFFFF 0xFFFFFFFF) State.reset 1).sad = 0x07FFFFFC := by decide

/-- B3. -/
theorem test_wrTmr :
    (chanAfter (.wrTmr 2 0x000000FF 0x12345678) (one 2 { blank with tmr := 0xFE00 }) 2).tmr = 0xFE78 := by
  decide

/-- B4. -/
theorem test_wrPnt :
    (chanAfter (.wrPnt 1 0xFFFF00F0 0xABCDABCD) (one 1 { blank with pnt := 0x1234 }) 1).pnt = 0x12C4 := by
  decide

/-- B5. -/
theorem test_wrLen : (chanAfter (.wrLen 0 0xFFFFFFFF 0xFFC00001) State.reset 0).len = 0x00000001 := by decide

/-- B6. -/
theorem test_wrMaster : (after (.wrMaster 0xFFFFFFFF 0xFFFF) State.reset).master = 0xBF7F := by decide

/-- B7 and B8. -/
theorem test_wrBias : (after (.wrBias 0xFFFFFFFF 0xFE00) State.reset).bias = 0x0200 ∧
    (after (.wrBias 0x0000000F 0xFFFFFFFA) { State.reset with bias := 0x0155 }).bias = 0x015A := by decide

/-- B1, B3 and B6, the reads; the others by R212. -/
theorem test_reads :
    let s := { one 2 { cnt := 0xFF7F837F, sad := 0x07FFFFFC, tmr := 0xFE78, pnt := 0x12C4, len := 0x3FFFFF, ptr := 1,
                       tcnt := 2, acc := 3, idx := 4, nsel := true, snapAcc := 5, snapIdx := 6, dutyc := 7,
                       lfsr := 8 } with
      master := 0xBF7F, bias := 0x015A }
    rdataAfter (.rdCnt 2) s = some (.rdata 0xFF7F837F) ∧ rdataAfter (.rdSad 2) s = some (.rdata 0x07FFFFFC) ∧
    rdataAfter (.rdTmr 2) s = some (.rdata 0x0000FE78) ∧ rdataAfter (.rdPnt 2) s = some (.rdata 0x000012C4) ∧
    rdataAfter (.rdLen 2) s = some (.rdata 0x003FFFFF) ∧ rdataAfter .rdMaster s = some (.rdata 0x0000BF7F) ∧
    rdataAfter .rdBias s = some (.rdata 0x0000015A) := by decide

/-- Vectors F5 and F6: a reserved code is recorded, and the first label is kept. -/
theorem test_reservedFx : (after (.reservedFx 0xF3) State.reset).fault = some (.cmdReserved 0xF3) ∧
    (after (.reservedFx 0xF3) { State.reset with fault := some (.reqZero 0) }).fault = some (.reqZero 0) := by
  decide

/-- B13 and B14. -/
theorem test_reload :
    (chanAfter (.reload 9) (one 9 { blank with cnt := 0xE300007F, dutyc := 5 }) 9).dutyc = 0 ∧
    (chanAfter (.reload 15) (one 15 { blank with cnt := 0xE000007F, lfsr := 0xC03F }) 15).lfsr = 0x7FFF := by
  decide

/-- B17: the signed seed, the index clamped from 127. -/
theorem test_startAdpcm :
    chanAfter (.startAdpcm 0) { one 0 { blank with sad := 0x100, nsel := true } with
      mem := [(0x101, 0x80), (0x102, 0x7F)] } 0 =
      { blank with sad := 0x100, acc := 0x18000, idx := 88, nsel := false, ptr := 0x104 } := by decide

/-- B18: the index 88 is kept. -/
theorem test_startAdpcm_88 :
    let ch := chanAfter (.startAdpcm 0) { one 0 { blank with sad := 0x100 } with
      mem := [(0x100, 0xFF), (0x101, 0xFF), (0x102, 0xD8), (0x103, 0xFF)] } 0
    ch.acc.toInt = -1 ∧ ch.idx = 88 := by decide

/-! ### Raw samples: vectors E1 to E14 -/

/-- E4. -/
theorem test_rawPcm8 :
    (dpAfter (.rawPcm8 0) { one 0 { blank with ptr := 0x100 } with mem := [(0x100, 0x80)] }).raw = -32768 := by
  decide

/-- E6. -/
theorem test_rawPcm16 :
    (dpAfter (.rawPcm16 0) { one 0 { blank with ptr := 0x100 } with mem := [(0x100, 0x34), (0x101, 0x12)] }).raw =
      4660 := by decide

/-- R103: the accumulator, here -32768. -/
theorem test_rawAdpcm : (dpAfter (.rawAdpcm 0) (one 0 { blank with acc := 0x18000 })).raw = -32768 := by
  decide

/-- E11, counters 3 and 4. -/
theorem test_rawPulse :
    (dpAfter (.rawPulse 13) (one 13 { blank with cnt := 0xE3000000, dutyc := 3 })).raw = -32767 ∧
    (dpAfter (.rawPulse 13) (one 13 { blank with cnt := 0xE3000000, dutyc := 4 })).raw = 32767 := by
  decide

/-- E14, before the first advance and after it. -/
theorem test_rawNoise : (dpAfter (.rawNoise 14) State.reset).raw = 32767 ∧
    (dpAfter (.rawNoise 14) (one 14 { blank with lfsr := 0xDFFF })).raw = -32767 := by decide

/-- E16. -/
theorem test_rawNone : (dpAfter (.rawNone 0) { State.reset with dp := { Datapath.idle with raw := 7 } }).raw = 0 := by
  decide

/-! ### Timer and advances: vectors T, E14, A20 -/

/-- T6, T7 and T2: no carry at 0xFDFF, one advance at 0xFE00, two with a reload that carries. -/
theorem test_timer_carry :
    let ch := { blank with cnt := 0x80000000, len := 9 }
    chanAfter (.timer 0) (one 0 { ch with tcnt := 0xFDFF }) 0 = { ch with tcnt := 0xFFFF } ∧
    chanAfter (.timer 0) (one 0 { ch with tcnt := 0xFE00 }) 0 = { ch with tcnt := 0x0000, ptr := 1 } ∧
    chanAfter (.timer 0) (one 0 { ch with tmr := 0xFF00, tcnt := 0xFF00 }) 0 =
      { ch with tmr := 0xFF00, tcnt := 0xFF00, ptr := 2 } := by decide

/-- T14: the loop is left when the end of data clears the enable bit. -/
theorem test_timer_stops_at_end :
    let ch := { blank with cnt := 0x9040007F, len := 1, tmr := 0xFFFF }
    chanAfter (.timer 0) (one 0 { ch with tcnt := 0xFFFF }) 0 =
      { ch with cnt := 0x1040007F, tcnt := 0x01FB, ptr := 4 } := by decide

/-- R107, and the wrap at the top of the address space. -/
theorem test_advPcm8 : (chanAfter (.advPcm8 4) (one 4 { blank with ptr := 0xFFFFFFFF }) 4).ptr = 0 := by
  decide

theorem test_advPcm16 : (chanAfter (.advPcm16 4) (one 4 { blank with ptr := 0xFFFFFFFE }) 4).ptr = 0 := by
  decide

/-- R108: 7 counts to 0. -/
theorem test_advPulse : (chanAfter (.advPulse 10) (one 10 { blank with dutyc := 7 }) 10).dutyc = 0 := by decide

/-- E14, advances 1 and 15. -/
theorem test_advNoise : (chanAfter (.advNoise 15) State.reset 15).lfsr = 0xDFFF ∧
    (chanAfter (.advNoise 15) (one 15 { blank with lfsr := 0xC000 }) 15).lfsr = 0x2000 := by decide

/-- S2, TICK 1: the capture, then code 0x8 from the low half, then the selector. -/
theorem test_advAdpcm :
    let ch := { blank with cnt := 0xD040007F, sad := 0x100, pnt := 1, len := 1, ptr := 0x104, acc := 5 }
    chanAfter (.advAdpcm 0) { one 0 ch with mem := [(0x104, 0x08)] } 0 = { ch with nsel := true, snapAcc := 5 } := by
  decide

/-- S2, TICK 2: code 0x0 from the high half, then the pointer. -/
theorem test_advAdpcm_high :
    let ch := { blank with cnt := 0xD040007F, sad := 0x100, pnt := 1, ptr := 0x104, acc := 5, nsel := true }
    chanAfter (.advAdpcm 0) { one 0 ch with mem := [(0x104, 0x08)] } 0 = { ch with nsel := false, ptr := 0x105 } := by
  decide

/-- R111. -/
theorem test_advNone : after (.advNone 7) twoFrames = twoFrames := by decide

/-! ### End of data: vectors E17 to E21 -/

/-- E17, after TICK 4. -/
theorem test_endCheck : (chanAfter (.endCheck 0) (one 0 { toneChan with ptr := 0x104 }) 0).cnt = 0x1040007F ∧
    (chanAfter (.endCheck 0) (one 0 { toneChan with ptr := 0x103 }) 0).cnt = 0x9040007F := by decide

/-- E18. -/
theorem test_repeatManual : (chanAfter (.repeatManual 0) (one 0 { toneChan with cnt := 0x8040007F }) 0).cnt =
    0x0040007F := by decide

/-- R7: with `MANUAL_STOPS` false a manual channel plays on at its end. -/
theorem test_manual_plays_on :
    let s := { one 0 { toneChan with cnt := 0x8040007F, ptr := 0x104 } with
      params := { Params.default with manualStops := false } }
    after (.repeatManual 0) s = s ∧ after (.endCheck 0) s = s := ⟨rfl, rfl⟩

/-- E20, after TICK 8; and an ADPCM channel takes its snapshot back (R141). -/
theorem test_repeatLoop :
    (chanAfter (.repeatLoop 0) (one 0 { toneChan with cnt := 0x8840007F, pnt := 1, ptr := 0x108 }) 0).ptr = 0x104 ∧
    chanAfter (.repeatLoop 1) (one 1 { blank with cnt := 0xC800007F, sad := 0x100, pnt := 2, ptr := 0x10C, acc := 9,
                                                          idx := 9, nsel := true, snapAcc := 204, snapIdx := 29 }) 1 =
      { blank with cnt := 0xC800007F, sad := 0x100, pnt := 2, ptr := 0x108, acc := 204, idx := 29,
                           nsel := false, snapAcc := 204, snapIdx := 29 } := by decide

/-- E17. -/
theorem test_repeatOneshot : (chanAfter (.repeatOneshot 0) (one 0 toneChan) 0).cnt = 0x1040007F := by decide

/-- E19. -/
theorem test_repeatReserved : (chanAfter (.repeatReserved 0) (one 0 { toneChan with cnt := 0x9840007F }) 0).cnt =
    0x1840007F := by decide

/-! ### A channel's work in a TICK: S1, P3, P5 -/

/-- S1, TICK 1. -/
theorem test_formatPcm8 :
    let t := after (.formatPcm8 0) { one 0 toneChan with mem := [(0x100, 0x10)] }
    t.dp.raw = 4096 ∧ (getChan t 0).ptr = 0x101 ∧ (getChan t 0).tcnt = 0xFE00 := by decide

/-- P5, TICK 2 of channel 2: two advances, the sample before them. -/
theorem test_formatPcm16 :
    let t := after (.formatPcm16 2) { one 2 { blank with cnt := 0xA8200140, sad := 0x200, tmr := 0xFF00, pnt := 1,
                                                                 len := 2, ptr := 0x204, tcnt := 0xFF00 } with
      mem := [(0x205, 0x80)] }
    t.dp.raw = -32768 ∧ (getChan t 2).ptr = 0x208 ∧ (getChan t 2).tcnt = 0xFF00 := by decide

/-- A3 through the row: the raw sample is the accumulator before the advance. -/
theorem test_formatAdpcm :
    let t := after (.formatAdpcm 0) { one 0 { blank with cnt := 0xC000007F, len := 9, ptr := 0x100, tcnt := 0xFE00,
                                                                 acc := 5 } with mem := [(0x100, 0x07)] }
    t.dp.raw = 5 ∧ (getChan t 0).acc = 16 ∧ (getChan t 0).idx = 8 := by decide

/-- P3, step 18: counter 0 below the threshold 2, then 1. -/
theorem test_formatPsg :
    let t := after (.formatPsg 8) (one 8 { blank with cnt := 0xE500007F, tmr := 0xFE00, tcnt := 0xFE00 })
    t.dp.raw = -32767 ∧ (getChan t 8).dutyc = 1 := by decide

/-! ### Stores of other masters inside a command (R60, R266) -/

/-- Two advances in one TICK take the two halves of the byte at 0x100; a store to it lands between the two reads, and the
second half is the new one: code 0x7 from the old byte (A3), then code 0x0 (S2) and not the 0x7 of the old one. -/
theorem test_store_between_halves :
    let s := { one 0 { blank with cnt := 0xC000007F, len := 9, ptr := 0x100, tmr := 0xFF00, tcnt := 0xFF00, acc := 5 } with
      mem := [(0x100, 0x77)], busStores := [[], [(0x100, 0x07)]] }
    let t := after (.formatAdpcm 0) s
    t.history = [.memRead true 0x100 1 0x07, .memRead true 0x100 1 0x77] ∧ t.mem = [(0x100, 0x07)] ∧ t.busStores = [] ∧
      (getChan t 0).ptr = 0x101 ∧ (getChan t 0).acc = 18 ∧ (getChan t 0).idx = 7 := by decide

/-! ### ADPCM codes: vectors A1 to A18, and the sweeps of S2 -/

/-- Accumulator, index and pointer after one code on channel 0 with the selector at 1. -/
def codeOn (i : Instr) (acc : BitVec 17) (idx : BitVec 7) : Int × Nat × Word :=
  let ch := chanAfter i (one 0 { blank with acc := acc, idx := idx, nsel := true }) 0
  (ch.acc.toInt, ch.idx.toNat, ch.ptr)

/-- A2, A8, A11, A3 and the sweep at index 0. -/
theorem test_nib_adding :
    codeOn (.nib0 0) 5 0 = (5, 0, 1) ∧ codeOn (.nib1 0) 5 0 = (6, 0, 1) ∧ codeOn (.nib2 0) 5 0 = (8, 0, 1) ∧
    codeOn (.nib3 0) 100 44 = (531, 43, 1) ∧ codeOn (.nib4 0) 0 87 = (32767, 88, 1) ∧ codeOn (.nib5 0) 5 0 = (13, 4, 1) ∧
    codeOn (.nib6 0) 5 0 = (15, 6, 1) ∧ codeOn (.nib7 0) 5 0 = (16, 8, 1) := by decide

/-- A1, A9, A6, A4 and the sweep at index 0. -/
theorem test_nib_subtracting :
    codeOn (.nib8 0) 5 0 = (5, 0, 1) ∧ codeOn (.nib9 0) 5 0 = (4, 0, 1) ∧ codeOn (.nibA 0) 5 0 = (2, 0, 1) ∧
    codeOn (.nibB 0) 100 44 = (-331, 43, 1) ∧ codeOn (.nibC 0) 0 2 = (-10, 4, 1) ∧ codeOn (.nibD 0) 5 0 = (-3, 4, 1) ∧
    codeOn (.nibE 0) 5 0 = (-5, 6, 1) ∧ codeOn (.nibF 0) 5 0 = (-6, 8, 1) := by decide

/-- A12, A13, A16, A17: the clamps, and the seed -32768. -/
theorem test_nib_clamps :
    codeOn (.nib7 0) 0 88 = (32767, 88, 1) ∧ codeOn (.nibF 0) 0 88 = (-32767, 88, 1) ∧
    codeOn (.nib8 0) 0x07FFF 88 = (28672, 87, 1) ∧ codeOn (.nib0 0) 0x18000 0 = (-32767, 0, 1) := by decide

/-- S3 and R133, R141. -/
theorem test_snapshot :
    let ch := { blank with sad := 0x100, pnt := 2, ptr := 0x108, acc := 204, idx := 29 }
    chanAfter (.snapCapture 1) (one 1 ch) 1 = { ch with snapAcc := 204, snapIdx := 29 } ∧
    chanAfter (.snapRestore 1) (one 1 { ch with acc := 1, idx := 2, nsel := true, snapAcc := 204, snapIdx := 29 }) 1 =
      { ch with snapAcc := 204, snapIdx := 29 } := by decide

/-! ### Volume, pan, mixer: S4, S5 -/

/-- S4: 127 acts as 128. -/
theorem test_volume :
    (dpAfter (.volume 0) { one 0 { blank with cnt := 0x7F } with dp := { Datapath.idle with raw := 32767 } }).s11 =
      67106816 ∧
    (dpAfter (.volume 0) { one 0 { blank with cnt := 0x7E } with dp := { Datapath.idle with raw := 32767 } }).s11 =
      66058272 := by decide

/-- S4. -/
theorem test_pan :
    let d := dpAfter (.pan 0) { one 0 { blank with cnt := 0x007E0000 } with
      dp := { Datapath.idle with s11 := 67106816 } }
    d.l = 131068 ∧ d.r = 8257284 := by decide

/-- S5: `MVOL = 127` on sums one apart, then bias and clip. -/
theorem test_mix :
    let s := { State.reset with master := 0x7F, bias := 0x200,
                                dp := { Datapath.idle with sumL := 8388352, sumR := -8388609 } }
    let m := after .mixMaster s
    let b := after .mixBias m
    let v := (after .mixClip b).dp
    b.dp.bL = 1023 ∧ b.dp.bR = -1 ∧ v.vL = 1023 ∧ v.vR = 0 := by decide

/-- S5 and R85. -/
theorem test_mix_pack :
    let r := after .mixRecentre { State.reset with dp := { Datapath.idle with vL := 1023, vR := 0 } }
    r.dp.oL = 16352 ∧ r.dp.oR = -16384 ∧ (dpAfter .mixPack r).frame = 0xC0003FE0 := by decide

/-! ### TICK: S1, M -/

/-- S1, TICK 1: the frame is stored and the enabled channel has moved. -/
theorem test_tick :
    let s := { one 0 toneChan with master := 0x7F, bias := 0x200, cap := 2, buf0 := [1, 2], buf1 := [3, 4],
                                   mem := [(0x100, 0x10)] }
    let t := after .tick s
    t.buf0 = [0x04000400, 2] ∧ t.wcur = 1 ∧ (getChan t 0).ptr = 0x101 ∧ t.history = [.memRead true 0x100 1 0x10] := by
  decide +kernel

/-- P4, step 6: no channel, the bias level 0x210, the buffer full and swapped. -/
theorem test_tick_bias :
    let t := after .tick { twoFrames with master := 0x7F, bias := 0x210, wcur := 1 }
    t.buf0 = [1, 0x02000200] ∧ t.wsel = true ∧ t.ready = true ∧ t.wcur = 0 := by decide +kernel

/-! ### Synchronizer: P4, F, Y -/

/-- R171, R172: dropped with capacity 0, stored and swapped at the last place. -/
theorem test_push : after (.push 9) State.reset = State.reset ∧ (after (.push 9) { twoFrames with wcur := 1 }).buf0 = [1, 9] ∧
    (after (.push 9) { twoFrames with wcur := 1 }).wsel = true := by decide

/-- P4, step 10, and the unthrottled swap (Y3). -/
theorem test_swapReq :
    (after .swapReq { twoFrames with wcur := 2, ready := true, limitRate := true }).swapPending = true ∧
    (after .swapReq { twoFrames with wcur := 2, ready := true }).wsel = true := by decide

theorem test_swap : after .swap { twoFrames with wcur := 2, swapPending := true } =
    { twoFrames with wsel := true, ready := true } := by decide

/-- P4, step 12. -/
theorem test_swapRelease :
    after .swapRelease { twoFrames with wsel := true, wcur := 2, swapPending := true } =
      { twoFrames with ready := true } := by decide

/-- Vectors F2 and F3. -/
theorem test_req : (after (.req 65537) State.reset).fault = some (.alloc 65537) ∧
    (after (.req 4) { twoFrames with wcur := 2, swapPending := true }).fault = some (.resizeRace 4) := by decide

/-- Vector F1, and the accepted request of P4 step 11. -/
theorem test_reqStart : (after (.reqStart 0) State.reset).fault = some (.reqZero 0) ∧
    after (.reqStart 2) twoFrames = { twoFrames with reqCount := 2, reqPhase := .waiting } := by decide

theorem test_resize : (after (.resize 3) twoFrames).cap = 3 ∧ (after (.resize 3) twoFrames).buf1.length = 3 ∧
    (after (.resize 3) twoFrames).ready = false := by decide

/-- P4, step 11. -/
theorem test_reqTake :
    after .reqTake { twoFrames with wsel := true, ready := true, reqPhase := .waiting, reqCount := 2 } =
      { twoFrames with wsel := true, reqCount := 2, history := [.reqData [1, 2]] } := by decide

theorem test_reqExpire : (after .reqExpire { twoFrames with reqPhase := .waiting, reqCount := 2 }).reqPhase = .expired := by
  decide

/-- S7 in small: the last frame of the ready buffer, twice. -/
theorem test_reqFallback :
    (after .reqFallback { twoFrames with reqPhase := .expired, reqCount := 2 }).history = [.reqData [4, 4]] := by
  decide

/-- R35, R260. -/
theorem test_reset :
    after .reset { one 3 toneChan with limitRate := true, mem := [(0x100, 0x10)], swapPending := true, cap := 2 } =
      { State.reset with limitRate := true, mem := [(0x100, 0x10)], draws := 1 } := by decide

/-- The next step after `withFetchWord` runs the operation of the word. -/
theorem test_withFetchWord : step (State.reset.withFetchWord 8 0x50) = exec (.wrMaster 0 0) State.reset ∧
    step (State.reset.withFetchWord 32 8) = exec (.req 8) State.reset := ⟨rfl, rfl⟩

/-! ### Witnesses: the hypotheses of the statements can be met

One theorem per statement that has hypotheses, named after it; a line for each clause, at the ends of its range. -/

theorem witness_DecodeOfEncodeIsTheOperation :
    (Instr.reservedFx 0xFF).wf = true ∧ encode (.reservedFx 0xFF) = some (.command 0xFF0000000000000000) ∧
    (Instr.wrLen 15 1 2).wf = true ∧ encode (.wrLen 15 1 2) = some (.command 0x4F0000000100000002) ∧
    (Instr.nibF 0).wf = true ∧ encode (.nibF 0) = some (.nibble 0 15) := by decide

theorem witness_EveryCommandWordIsAnOperation :
    (commandCode 0x50FFFFFFFF0000007F).toNat ≤ 0x50 ∧ commandCode 0x60FFFFFFFF0000007F = 0x60 ∧
    ¬((commandCode 0x510000000000000000).toNat ≤ 0x50) := by decide

theorem witness_ReservedCodesAreThoseListed :
    (commandCode 0xF00000000000000000).toNat / 16 = 15 ∧ (commandCode 0xEF0000000000000000).toNat / 16 = 14 ∧
    (commandCode 0xEF0000000000000000).toNat % 16 ≠ 0 ∧ decodeCommand 0x510000000000000000 = .reservedFx 0x51 ∧
    decodeCommand 0x500000000000000000 ≠ .reservedFx 0x50 := by decide

theorem witness_TableWordIsFetchedAndRun : decodeTableWord 8 0x70 = some .tick ∧ decodeTableWord 32 0 = some (.req 0) ∧
    decodeTableWord 72 0xE0 = some .rdBias := by decide

theorem witness_StepRunsTheDecodedCommand :
    let s := { State.reset with turns := [.producer], cmdQ := [0x700000000000000000] }
    s.turns = .producer :: [] ∧ s.cmdQ = 0x700000000000000000 :: [] ∧ s.swapPending = false ∧ s.raced = false := by
  decide

theorem witness_StepRunsTheDecodedRequest :
    let s := { State.reset with turns := [.deadline], reqQ := [8] }
    s.turns = .deadline :: [] ∧ s.reqQ = 8 :: [] ∧ s.reqPhase = .idle ∧ s.raced = false := by decide

theorem witness_StalledProducerOnlyReleases :
    let s := { twoFrames with turns := [.producer], wcur := 2, swapPending := true }
    s.turns = .producer :: [] ∧ s.swapPending = true ∧ s.raced = false ∧ s.ready = false ∧
      { s with ready := true }.ready = true := by decide

theorem witness_ConsumerTurnsInsideARequest :
    let s := { twoFrames with turns := [.deadline], reqPhase := .waiting, reqCount := 2 }
    let e := { s with turns := [.consumer], reqPhase := .expired }
    s.turns = .deadline :: [] ∧ s.reqPhase = .waiting ∧ s.ready = false ∧ s.raced = false ∧
      e.turns = .consumer :: [] ∧ e.reqPhase = .expired ∧ { s with ready := true }.ready = true := by decide

theorem witness_OtherTurns :
    let s := State.reset
    s.turns = [] ∧ s.cmdQ = [] ∧ s.reqQ = [] ∧ s.swapPending = false ∧ s.reqPhase = .idle ∧ s.raced = false ∧
      { s with turns := [.limitRate true] }.turns = .limitRate true :: [] ∧
      { s with turns := [.poke 1 2] }.turns = .poke 1 2 :: [] ∧ { s with turns := [.reset] }.turns = .reset :: [] ∧
      { s with raced := true }.raced = true := by decide

/-- The hypothesis of every statement about an accepted command: no swap is pending. -/
theorem witness_WriteTimerAndLoopPoint : State.reset.swapPending = false := rfl

theorem witness_WriteAddressLengthAndMaster : twoFrames.swapPending = false := rfl

theorem witness_WriteBias : twoFrames.swapPending = false := rfl

/-- The edge; and one away from it in the old bit, the mask and the value. -/
theorem witness_WriteControlWithItsEdge :
    let new (old m v : Word) := (old &&& ~~~(m &&& 0xFF7F837F)) ||| (v &&& (m &&& 0xFF7F837F))
    State.reset.swapPending = false ∧ State.reset.params.masks.cnt = 0xFF7F837F ∧
    (getChan State.reset 0).cnt.getLsbD 31 = false ∧ (new 0 0x80000000 0x80000000).getLsbD 31 = true ∧
    (new 0 0x7FFFFFFF 0x80000000).getLsbD 31 = false ∧ (getChan (one 0 toneChan) 0).cnt.getLsbD 31 = true := by decide

theorem witness_ReloadByFormat :
    let p := Params.default
    formatOf p 0x9040007F = .pcm8 ∧ formatOf p 0xA8200140 = .pcm16 ∧ formatOf p 0xC800007F = .adpcm ∧
    formatOf p 0xE500007F = .psg ∧ genOf p 7 = .silent ∧ genOf p 8 = .pulse ∧ genOf p 13 = .pulse ∧ genOf p 14 = .noise ∧
    genOf p 15 = .noise ∧ p.psgRestart = true ∧ { p with psgRestart := false }.psgRestart = false ∧
    (getChan (one 13 { blank with cnt := 0xE500007F }) 13).cnt = 0xE500007F := by decide

theorem witness_ReadsReturnTheStoredRegister : (one 0 toneChan).swapPending = false := rfl

theorem witness_WriteThenReadRoundTrip : (one 0 toneChan).swapPending = false := rfl

theorem witness_WaitingStepsChangeNothing :
    { twoFrames with swapPending := true }.swapPending = true ∧
    ¬(State.reset.swapPending = true ∧ State.reset.ready = false) ∧ ¬(State.reset.reqPhase = .waiting ∧ State.reset.ready = true) ∧
    ¬(State.reset.reqPhase = .waiting ∧ State.reset.ready = false) ∧ State.reset.reqPhase ≠ .expired ∧
    { twoFrames with reqPhase := .waiting }.reqPhase ≠ .idle := by decide

theorem witness_ReservedCommandIsRecorded : State.reset.swapPending = false ∧ State.reset.fault = none ∧
    { State.reset with fault := some (.alloc 9) }.fault = some (.alloc 9) := by decide

theorem witness_FirstFaultIsKept :
    let s := { State.reset with fault := some (.alloc 9), turns := [.producer], cmdQ := [0xFF0000000000000000] }
    step s = .next { s with turns := [], cmdQ := [] } ∧ s.fault = some (.alloc 9) ∧ s.turns.head? ≠ some .reset :=
  ⟨rfl, rfl, by decide⟩

theorem witness_TimerWithoutOverflow :
    (getChan (one 0 { blank with tcnt := 0xFDFF }) 0).tcnt.toNat + 512 < 2 ^ 16 := by decide

/-- The generator a row belongs to, and one of another kind. -/
theorem witness_RawSamplesWithoutARead :
    genOf State.reset.params 13 = .pulse ∧ genOf State.reset.params 14 = .noise ∧ genOf State.reset.params 7 = .silent := by
  decide

theorem witness_AdvanceOfPcmNoiseAndSilence : genOf State.reset.params 15 = .noise ∧ genOf State.reset.params 8 ≠ .noise ∧
    genOf State.reset.params 14 ≠ .pulse := by decide

theorem witness_AdvanceOfPulse : genOf State.reset.params 8 = .pulse ∧ genOf State.reset.params 13 = .pulse ∧
    State.reset.params.pulseCh = Params.default.pulseCh := by decide

/-- The last carry-free reload, the first with a carry, and the vector T14, whose channel ends with a carry due. -/
theorem witness_TimerOverflowLoop :
    let last := one 8 { blank with cnt := 0x80000000, tcnt := 0xFE00, tmr := 0xFFFF }
    let first := one 8 { blank with cnt := 0x80000000, len := 9, tcnt := 0xFE01, tmr := 0xFFFF }
    let ending := one 0 { blank with cnt := 0x9040007F, len := 1, ptr := 3, tcnt := 0xFFFF, tmr := 0xFFFF }
    let sum (s : State) (c : Chan) : Nat := (getChan s c).tcnt.toNat + 512 - 2 ^ 16 + (getChan s c).tmr.toNat
    let enabledAfter (s : State) (c : Chan) : Bool :=
      cntEnabled (chanAfter (.endCheck c) (after (.advPcm8 c) s) c).cnt
    2 ^ 16 ≤ (getChan last 8).tcnt.toNat + 512 ∧ sum last 8 < 2 ^ 16 ∧
    2 ^ 16 ≤ (getChan first 8).tcnt.toNat + 512 ∧ 2 ^ 16 ≤ sum first 8 ∧ enabledAfter first 8 = true ∧
    2 ^ 16 ≤ (getChan ending 0).tcnt.toNat + 512 ∧ 2 ^ 16 ≤ sum ending 0 ∧ enabledAfter ending 0 = false := by decide

theorem witness_OverflowLoopNeedsAtMost512Passes :
    (getChan (one 0 { blank with tcnt := 511 }) 0).tcnt.toNat ≤ 511 ∧ 512 ≤ 512 := by decide

theorem witness_EndOfDataByRepeatMode :
    let ch := { toneChan with ptr := 0x104 }
    let p := Params.default
    formatOf p ch.cnt = .pcm8 ∧ repeatOf p ch.cnt = .oneshot ∧ formatOf p 0xC800007F = .adpcm ∧
    repeatOf p 0xC800007F = .loop ∧ repeatOf p 0x8040007F = .manual ∧ repeatOf p 0x9840007F = .reserved ∧
    formatOf p 0xE500007F = .psg ∧ ch.ptr = BitVec.ofNat 32 (ch.sad.toNat + 4 * (ch.pnt.toNat + ch.len.toNat)) ∧
    toneChan.ptr ≠ BitVec.ofNat 32 (ch.sad.toNat + 4 * (ch.pnt.toNat + ch.len.toNat)) ∧ getChan (one 0 ch) 0 = ch := by
  decide

theorem witness_StepTableIsTheGeneratedOne : (88 : BitVec 7).toNat ≤ 88 ∧ ¬((89 : BitVec 7).toNat ≤ 88) := by decide

theorem witness_SnapshotCapture :
    let ch := { blank with sad := 0xFFFFFFFC, pnt := 1, ptr := 0 }
    ch.ptr.toNat = (ch.sad.toNat + 4 * ch.pnt.toNat) % 2 ^ 32 ∧ ch.nsel = false ∧
    ¬(({ ch with nsel := true } : Channel).nsel = false) := by decide

theorem witness_SnapshotSurvivesTheWrap :
    let ch := getChan (one 1 { blank with cnt := 0xC800007F, sad := 0x100, pnt := 2, len := 1, ptr := 0x10C }) 1
    formatOf State.reset.params ch.cnt = .adpcm ∧ repeatOf State.reset.params ch.cnt = .loop ∧
      ch.ptr = BitVec.ofNat 32 (ch.sad.toNat + 4 * (ch.pnt.toNat + ch.len.toNat)) := by decide

theorem witness_SilentTickPushesTheBiasLevel :
    twoFrames.swapPending = false ∧ ∀ c, (getChan twoFrames c).cnt.getLsbD 31 = false := by decide

theorem witness_DisabledChannelTakesNoPart : (one 0 toneChan).swapPending = false ∧
    (getChan (one 0 toneChan) 1).cnt.getLsbD 31 = false ∧ ({ toneChan with cnt := 0x1040007F } : Channel).cnt.getLsbD 31 = false := by
  decide

/-- One enabled channel, and disabled ones beside it. -/
theorem witness_TickFrameCondition : (one 0 toneChan).swapPending = false ∧
    (getChan (one 0 toneChan) 1).cnt.getLsbD 31 = false ∧ ¬(true = twoFrames.wsel ∧ 0 = twoFrames.wcur) :=
  ⟨rfl, rfl, by decide⟩

/-- A byte that no store under way goes to. -/
theorem witness_TickFrameCondition_bytes : ∀ l ∈ [[((1 : Word), (2 : Byte))]], ∀ p ∈ l, p.1.toNat ≠ 0 := by simp

theorem witness_TickIsItsSubSteps : (one 0 toneChan).swapPending = false := rfl

theorem witness_PushStoresAndMayRequestASwap : State.reset.cap = 0 ∧ (twoFrames.cap ≠ 0 ∧ twoFrames.wcur + 1 ≠ twoFrames.cap) ∧
    ({ twoFrames with wcur := 1 }.cap ≠ 0 ∧ { twoFrames with wcur := 1 }.wcur + 1 = { twoFrames with wcur := 1 }.cap) := by
  decide

theorem witness_SwapRequestStallsOrSwaps :
    ({ twoFrames with limitRate := true, ready := true }.limitRate = true ∧
      { twoFrames with limitRate := true, ready := true }.ready = true) ∧
    ({ twoFrames with limitRate := true }.limitRate = false ∨ { twoFrames with limitRate := true }.ready = false) := by
  decide

theorem witness_ReleaseSwaps :
    let s := { twoFrames with wcur := 2, swapPending := true }
    s.swapPending = true ∧ s.ready = false := by decide

/-- The counts 0, `BUF_MAX`, `BUF_MAX + 1` and `CAP`, without and with a pending swap. -/
theorem witness_RequestStart :
    twoFrames.reqPhase = .idle ∧ (65537 : Word) ≠ 0 ∧ twoFrames.params.bufMax < (65537 : Word).toNat ∧
    (65536 : Word).toNat ≤ twoFrames.params.bufMax ∧ (65536 : Word).toNat ≠ twoFrames.cap ∧ twoFrames.swapPending = false ∧
    (2 : Word).toNat = twoFrames.cap ∧ { twoFrames with wcur := 2, swapPending := true }.swapPending = true := by decide

theorem witness_ResizeDrawsNewBuffers : twoFrames.swapPending = false ∧
    { twoFrames with swapPending := true }.swapPending = true := by decide

theorem witness_RequestEndings :
    let s := { twoFrames with reqPhase := .waiting, reqCount := 2, ready := true }
    s.reqPhase = .waiting ∧ s.ready = true ∧ s.reqCount.toNat ≤ (getBuf s (!s.wsel)).length ∧
      { s with ready := false }.ready = false ∧ { s with reqPhase := .expired }.reqPhase = .expired ∧
      (getBuf s (!s.wsel))[s.reqCount.toNat - 1]? = some 4 := by decide

/-- The whole invariant holds of a block with two-frame buffers that is not the reset state. -/
theorem witness_BlockInv (ts : List Turn) (cq : List (BitVec 72)) (rq : List Word) :
    BlockInv { twoFrames with turns := ts, cmdQ := cq, reqQ := rq } where
  params := ⟨show Params.default.lfsrInit &&& 0x7FFF ≠ 0 by decide, show Params.default.lfsrTap.getLsbD 14 = true by decide,
    show 0 ≤ 65536 by decide⟩
  chans c := by
    have h : ∀ c, getChan twoFrames c = blank := by decide
    rw [show getChan { twoFrames with turns := ts, cmdQ := cq, reqQ := rq } c = blank from h c]
    show ChanInv Masks.default blank
    constructor <;> decide
  bias_bits := show twoFrames.bias &&& ~~~Masks.default.bias = 0 by decide
  master_bits := show twoFrames.master &&& ~~~Masks.default.master = 0 by decide
  unconfigured _ := rfl
  cursor_lt _ _ := show 0 < 2 by decide
  pending_full h := Bool.noConfusion h
  buf0_len := rfl
  buf1_len := rfl
  request h := absurd rfl h
  cap_le := show 2 ≤ 65536 by decide
  mem_wf := rfl

theorem witness_SecondRequestRepeatsTheLastFrame :
    let s := { twoFrames with turns := [.consumer, .deadline, .consumer, .consumer, .deadline, .consumer] ++ [], cmdQ := [],
                              reqQ := [2, 2] }
    BlockInv s ∧ s.raced = false ∧ s.reqPhase = .idle ∧ (2 : Word) ≠ 0 ∧ (2 : Word).toNat = s.cap ∧ s.reqQ = [2, 2] :=
  ⟨witness_BlockInv _ _ _, rfl, rfl, by decide, rfl, rfl⟩

theorem witness_UnthrottledProducerNeverStalls : twoFrames.limitRate = false ∧ twoFrames.swapPending = false := by decide

theorem witness_AcceptedRequestIsDelivered :
    let s := { twoFrames with turns := [.deadline, .deadline], reqPhase := .expired, reqCount := 2 }
    s.raced = false ∧ s.reqPhase ≠ .idle ∧ { s with reqPhase := .waiting }.reqPhase ≠ .idle ∧ s.reqQ = [] ∧
      s.turns = .deadline :: .deadline :: [] := by decide

theorem witness_EveryStepKeepsTheInvariant :
    BlockInv { twoFrames with turns := [.deadline], cmdQ := [], reqQ := [2] } ∧
    step { twoFrames with turns := [.deadline], cmdQ := [], reqQ := [2] } =
      .next { twoFrames with reqCount := 2, reqPhase := .waiting } := ⟨witness_BlockInv _ _ _, rfl⟩

theorem witness_AgentsKeepToTheirOwnState :
    step { twoFrames with turns := [.consumer] } = .next twoFrames ∧
    step { twoFrames with turns := [.producer] } = .next twoFrames ∧
    step { twoFrames with turns := [.limitRate true] } = .next { twoFrames with limitRate := true } :=
  ⟨rfl, rfl, rfl⟩

theorem witness_StoresAndLittleEndianReads :
    let s := { twoFrames with turns := [.poke 0xFFFFFFFF 7], mem := [(0, 1)] }
    memWf s.mem = true ∧ s.turns = .poke 0xFFFFFFFF 7 :: [] ∧ 0 ≠ (0xFFFFFFFF : Word).toNat ∧
      memValue (memPut s.mem 0xFFFFFFFF 7) 0xFFFFFFFF 2 = 0x0107 := by decide

end Sys2Proof.Machine.Tests
end

section
/-! How a step reaches the operation it runs: the turn taken off the list, and the head of its agent's queue (00_scope.md
R10). -/

namespace Sys2Proof.Machine

/-! ### The scheduler -/

theorem step_of_turn {s : State} {t : Turn} {ts : List Turn} (hturn : s.turns = t :: ts) :
    step s = takeTurn t { s with turns := ts } := by
  rw [step, hturn]

/-- An agent acts as long as no resize race was raised (60_exceptions.md R231). -/
theorem agentTurn_of_not_raced {s : State} (hraced : s.raced = false) (run : State → Result) :
    agentTurn run s = run s := by
  rw [agentTurn, hraced]
  rfl

/-- A step that takes the producer's turn. -/
theorem step_producerTurn {s : State} {ts : List Turn} (hturn : s.turns = .producer :: ts) (hraced : s.raced = false) :
    step s = producerTurn { s with turns := ts } :=
  (step_of_turn hturn).trans (agentTurn_of_not_raced (s := { s with turns := ts }) hraced producerTurn)

/-- A step that takes a turn of the consumer, which knows whether the deadline has passed (43_synchronizer.md R182). -/
theorem step_consumerTurn {s : State} {t : Turn} {ts : List Turn} (hagent : t = .consumer ∨ t = .deadline)
    (hturn : s.turns = t :: ts) (hraced : s.raced = false) :
    step s = consumerTurn (decide (t = .deadline)) { s with turns := ts } := by
  have hact := agentTurn_of_not_raced (s := { s with turns := ts }) hraced
  rcases hagent with rfl | rfl
  · exact (step_of_turn hturn).trans (hact (consumerTurn false))
  · exact (step_of_turn hturn).trans (hact (consumerTurn true))

/-! ### What an agent fetches -/

/-- Not stalled, the producer runs the head of the command queue. -/
theorem producerTurn_command {s : State} {w : BitVec 72} {rest : List (BitVec 72)} (hq : s.cmdQ = w :: rest)
    (hpending : s.swapPending = false) : producerTurn s = exec (decode (.command w)) { s with cmdQ := rest } := by
  simp [producerTurn, hq, hpending]

/-- Idle, the consumer begins the head of the request queue, whether or not the deadline has passed. -/
theorem consumerTurn_request {s : State} {n : Word} {rest : List Word} (hq : s.reqQ = n :: rest)
    (hidle : s.reqPhase = .idle) (deadlinePassed : Bool) :
    consumerTurn deadlinePassed s = exec (decode (.request n)) { s with reqQ := rest } := by
  simp [consumerTurn, hq, hidle]

/-- Settles O6: the step is the producer's turn, and the turn fetches the head of the command queue. -/
theorem stepRunsTheDecodedCommand : Obligations.StepRunsTheDecodedCommand := by
  intro s w rest ts hturn hq hpending hraced
  rw [step_producerTurn hturn hraced, producerTurn_command (s := { s with turns := ts }) hq hpending]

/-- Settles O7: the step is a turn of the consumer, and idle it fetches the head of the request queue. -/
theorem stepRunsTheDecodedRequest : Obligations.StepRunsTheDecodedRequest := by
  intro s t n rest ts hagent hturn hq hidle hraced
  rw [step_consumerTurn hagent hturn hraced, consumerTurn_request (s := { s with turns := ts }) hq hidle]

end Sys2Proof.Machine
end

section
/-! The parameters of 00_scope.md R7 at the spec's values: which channels own a generator, and that the machine's fields
are those of 30_encoding.md. -/

namespace Sys2Proof.Machine

/-! ### Generators -/

/-- A channel of `PULSE_CH` owns a duty counter, also when it stands in `NOISE_CH` (log entry 25). -/
theorem genOf_eq_pulse_iff (p : Params) (c : Chan) : genOf p c = .pulse ↔ c ∈ p.pulseCh := by
  by_cases hpulse : c ∈ p.pulseCh <;> by_cases hnoise : c ∈ p.noiseCh <;> simp [genOf, hpulse, hnoise]

theorem genOf_eq_noise_iff (p : Params) (c : Chan) : genOf p c = .noise ↔ c ∉ p.pulseCh ∧ c ∈ p.noiseCh := by
  by_cases hpulse : c ∈ p.pulseCh <;> by_cases hnoise : c ∈ p.noiseCh <;> simp [genOf, hpulse, hnoise]

theorem mem_default_pulseCh_iff (c : Chan) : c ∈ Params.default.pulseCh ↔ 8 ≤ c.val ∧ c.val ≤ 13 := by
  revert c; decide

theorem mem_default_noiseCh_iff (c : Chan) : c ∈ Params.default.noiseCh ↔ 14 ≤ c.val := by
  revert c; decide

theorem genOf_default_eq_pulse_iff (c : Chan) : genOf Params.default c = .pulse ↔ 8 ≤ c.val ∧ c.val ≤ 13 :=
  (genOf_eq_pulse_iff _ c).trans (mem_default_pulseCh_iff c)

theorem genOf_default_eq_noise_iff (c : Chan) : genOf Params.default c = .noise ↔ 14 ≤ c.val := by
  rw [genOf_eq_noise_iff, mem_default_pulseCh_iff, mem_default_noiseCh_iff]
  omega

/-! ### Fields -/

theorem twoBits_cases (f : BitVec 2) : f = 0 ∨ f = 1 ∨ f = 2 ∨ f = 3 := by
  revert f; decide

/-- At the spec's layout the format the machine runs is the row that decoding the field names (30_encoding.md R71). -/
theorem formatRow_formatOf_default (c : Chan) (cnt : Word) :
    formatRow (formatOf Params.default cnt) c = decodeFormatField c cnt := by
  rcases twoBits_cases (cnt.extractLsb' 29 2) with h | h | h | h <;>
    simp [formatOf, decodeFormatField, formatRow, Params.default, Layout.default, h]

/-- At the spec's layout the loop mode the machine runs is the row that decoding the field names (30_encoding.md R71). -/
theorem repeatRow_repeatOf_default (c : Chan) (cnt : Word) :
    repeatRow (repeatOf Params.default cnt) c = decodeRepeatField c cnt := by
  rcases twoBits_cases (cnt.extractLsb' 27 2) with h | h | h | h <;>
    simp [repeatOf, decodeRepeatField, repeatRow, Params.default, Layout.default, h]

/-- With `MVOL_127_IS_128` the master volume reads its field as the channel volume does (decision D19). -/
theorem masterVolume_of_mvol127Is128 {p : Params} (h : p.mvol127Is128 = true) (master : Half) :
    masterVolume p master = upTo128 (master.extractLsb' p.layout.mvol 7) := by
  simp [masterVolume, upTo128, h]

/-- Settles O60: the values, then the generators' channels, then one lemma per field whose meaning is not its position
alone. -/
theorem defaultParametersAreTheSpecsValues : Obligations.DefaultParametersAreTheSpecsValues := by
  refine ⟨rfl, fun c cnt master => ?_⟩
  refine ⟨rfl, rfl, rfl, rfl, rfl, rfl, rfl, rfl, rfl, rfl, rfl, ?pulse, ?noise, ?format, ?rep, ?vol, ?pan, ?div, ?duty,
    ?mvol⟩
  case pulse => exact genOf_default_eq_pulse_iff c
  case noise => exact genOf_default_eq_noise_iff c
  case format => exact formatRow_formatOf_default c cnt
  case rep => exact repeatRow_repeatOf_default c cnt
  case vol | pan | div | duty => rfl
  case mvol => exact masterVolume_of_mvol127Is128 rfl master

end Sys2Proof.Machine
end

section
/-! What a channel's work leaves alone, counted in reads (10_state.md R37), and what a whole TICK leaves alone: the
channels one after another, then one `PUSH`. -/

namespace Sys2Proof.Machine

/-! ### A channel's work -/

/-- `OnlyChannel` with the number of reads, and the latches left alone: what composes over a channel's sub-steps. -/
structure ChannelFrame (n : Nat) (c : Chan) (s t : State) : Prop where
  only : OnlyChannel c s t
  reads : OnlyReads n s t
  dp : t.dp = s.dp

theorem ChannelFrame.refl (c : Chan) (s : State) : ChannelFrame 0 c s s := ⟨.refl c s, .refl s, rfl⟩

theorem ChannelFrame.trans {m n : Nat} {c : Chan} {s t u : State} (h : ChannelFrame m c s t)
    (k : ChannelFrame n c t u) : ChannelFrame (m + n) c s u :=
  ⟨h.only.trans k.only, h.reads.trans k.reads h.only.rest.params, k.dp.trans h.dp⟩

theorem ChannelFrame.mono {m n : Nat} {c : Chan} {s t : State} (h : ChannelFrame m c s t) (hmn : m ≤ n) :
    ChannelFrame n c s t :=
  ⟨h.only, h.reads.mono hmn, h.dp⟩

theorem setTcnt_frame (c : Chan) (t : Half) (s : State) :
    ChannelFrame 0 c s (setChan s c { getChan s c with tcnt := t }) :=
  ⟨onlyChannel_setChan ⟨rfl, rfl, rfl, rfl, .inl rfl, fun _ => rfl, fun _ => rfl⟩, onlyReads_none rfl rfl rfl, rfl⟩

theorem rawSample_dp (fmt : Format) (c : Chan) (s : State) : (rawSample fmt c s).2.dp = s.dp := by
  cases fmt with
  | pcm8 | pcm16 | adpcm => rfl
  | psg =>
    unfold rawSample
    dsimp only
    split <;> rfl

theorem captureSnap_dp (c : Chan) (s : State) : (captureSnap c s).dp = s.dp := by
  unfold captureSnap
  dsimp only
  split <;> rfl

theorem advance_dp (fmt : Format) (c : Chan) (s : State) : (advance fmt c s).dp = s.dp := by
  cases fmt with
  | pcm8 | pcm16 => rfl
  | adpcm => exact captureSnap_dp c s
  | psg =>
    unfold advance
    dsimp only
    split <;> rfl

theorem endOfData_dp (fmt : Format) (c : Chan) (s : State) : (endOfData fmt c s).dp = s.dp := by
  rcases endOfData_cases fmt c s with ⟨-, he⟩ | ⟨-, -, he⟩ <;> rw [he]
  rcases atEnd_cases fmt c s with he | he | he <;> rw [he]
  · rfl
  · cases fmt <;> rfl

theorem rawSample_frame (fmt : Format) (c : Chan) (s : State) : ChannelFrame 1 c s (rawSample fmt c s).2 :=
  ⟨rawSample_onlyChannel fmt c s, rawSample_onlyReads fmt c s, rawSample_dp fmt c s⟩

theorem advance_frame (fmt : Format) (c : Chan) (s : State) : ChannelFrame 1 c s (advance fmt c s) :=
  ⟨advance_onlyChannel fmt c s, advance_onlyReads fmt c s, advance_dp fmt c s⟩

theorem endOfData_frame (fmt : Format) (c : Chan) (s : State) : ChannelFrame 0 c s (endOfData fmt c s) :=
  ⟨endOfData_onlyChannel fmt c s, endOfData_onlyReads fmt c s, endOfData_dp fmt c s⟩

/-- Each pass reads at most once (40_channel_engine.md R105). -/
theorem overflowLoop_frame (fmt : Format) (c : Chan) (passes : Nat) (s : State) :
    ChannelFrame passes c s (overflowLoop fmt c passes s) := by
  induction passes generalizing s with
  | zero => exact .refl c s
  | succ n ih =>
    rw [overflowLoop_succ]
    have hpass := ((setTcnt_frame c (timerAdd (getChan s c).tcnt (getChan s c).tmr).1 s).trans
      (advance_frame fmt c _)).trans (endOfData_frame fmt c _)
    split
    · exact (hpass.trans (ih _)).mono (by omega)
    · exact hpass.mono (by omega)

theorem timerStep_frame (fmt : Format) (c : Chan) (s : State) : ChannelFrame timerPasses c s (timerStep fmt c s) := by
  rcases timerStep_cases fmt c s with ⟨-, he⟩ | ⟨-, he⟩ <;> rw [he]
  · exact (setTcnt_frame c _ s).mono (Nat.zero_le _)
  · exact ((setTcnt_frame c _ s).trans (overflowLoop_frame fmt c timerPasses _)).mono (Nat.zero_add _).le

theorem channelWork_state (fmt : Format) (c : Chan) (s : State) :
    (channelWork fmt c s).2 = timerStep fmt c (rawSample fmt c s).2 := by
  rw [channelWork]

theorem channelWork_frame (fmt : Format) (c : Chan) (s : State) :
    ChannelFrame (1 + timerPasses) c s (channelWork fmt c s).2 := by
  rw [channelWork_state]
  exact (rawSample_frame fmt c s).trans (timerStep_frame fmt c _)

theorem onlyChannel_setDp (c : Chan) (d : Datapath) (s : State) : OnlyChannel c s (setDp s d) :=
  ⟨by constructor <;> rfl, fun _ _ => rfl, .refl _ _⟩

/-- A `FORMAT` row is the channel's work with its raw sample latched (log entry 15). -/
theorem exec_formatRow (fmt : Format) (c : Chan) (s : State) :
    exec (formatRow fmt c) s = .next (latchRaw (channelWork fmt c s)) := by
  cases fmt <;> rfl

/-- The latch of a raw sample is no part of the block (log entry 14). -/
theorem latchRaw_frame {n : Nat} {c : Chan} {s : State} {r : Int × State} (h : ChannelFrame n c s r.2) :
    OnlyChannel c s (latchRaw r) ∧ OnlyReads n s (latchRaw r) ∧
      (latchRaw r).dp = { s.dp with raw := (latchRaw r).dp.raw } :=
  ⟨h.only.trans (onlyChannel_setDp c _ r.2), h.reads.congr rfl rfl rfl, by rw [latchRaw, setDp_dp, h.dp]⟩

/-- Settles O29: the frames above, and for the rows that the latch takes the raw sample alone. -/
theorem channelWorkStaysInItsChannel : Obligations.ChannelWorkStaysInItsChannel := by
  intro c s
  have htimer := timerStep_frame (formatOf s.params (getChan s c).cnt) c s
  have hadv := advance_frame .adpcm c s
  have hend := endOfData_frame (formatOf s.params (getChan s c).cnt) c s
  refine ⟨⟨_, rfl, htimer.only, htimer.reads, htimer.dp⟩, ⟨_, rfl, hadv.only, hadv.reads, hadv.dp⟩,
    ⟨_, rfl, hend.only, hend.reads, hend.dp⟩, ?_⟩
  intro i hi
  have hrow : ∃ fmt, i = formatRow fmt c := by
    simp only [List.mem_cons, List.not_mem_nil, or_false] at hi
    rcases hi with rfl | rfl | rfl | rfl
    exacts [⟨.pcm8, rfl⟩, ⟨.pcm16, rfl⟩, ⟨.adpcm, rfl⟩, ⟨.psg, rfl⟩]
  obtain ⟨fmt, rfl⟩ := hrow
  exact ⟨_, exec_formatRow fmt c s, latchRaw_frame (channelWork_frame fmt c s)⟩

/-! ### The channels of a TICK -/

/-- What the channels of a TICK may have touched once some of them have worked (10_state.md R37). -/
structure TickFrame (n : Nat) (s t : State) : Prop where
  rest : SameButChannels s t
  bank : ∀ c, BankKept (genOf s.params c) (getChan s c) (getChan t c)
  disabled : ∀ c, cntEnabled (getChan s c).cnt = false → getChan t c = getChan s c
  reads : OnlyReads n s t
  dp : t.dp = s.dp

theorem TickFrame.refl (s : State) : TickFrame 0 s s :=
  ⟨.refl s, fun _ => .refl _ _, fun _ _ => rfl, .refl s, rfl⟩

theorem TickFrame.mono {m n : Nat} {s t : State} (h : TickFrame m s t) (hmn : m ≤ n) : TickFrame n s t :=
  { h with reads := h.reads.mono hmn }

/-- The work of one more channel, which is enabled and so is none of those disabled before the TICK. -/
theorem TickFrame.work {m n : Nat} {c : Chan} {s t u : State} (h : TickFrame m s t)
    (henabled : cntEnabled (getChan t c).cnt = true) (k : ChannelFrame n c t u) : TickFrame (m + n) s u where
  rest := h.rest.trans k.only.rest
  bank d := by
    by_cases hd : d = c
    · subst hd
      exact (h.bank d).trans (h.rest.params ▸ k.only.bank)
    · rw [k.only.others d hd]
      exact h.bank d
  disabled d hoff := by
    have hd : d ≠ c := by
      rintro rfl
      rw [h.disabled d hoff, hoff] at henabled
      exact Bool.false_ne_true henabled
    rw [k.only.others d hd, h.disabled d hoff]
  reads := h.reads.trans k.reads h.rest.params
  dp := k.dp.trans h.dp

theorem tickChan_frame {n : Nat} {s : State} {t : TickState} (h : TickFrame n s t.st) (c : Chan) :
    TickFrame (n + 513) s (tickChan t c).st := by
  rcases tickChan_cases t c with ⟨-, he⟩ | ⟨henabled, he⟩ <;> rw [he]
  · exact h.mono (Nat.le_add_right _ _)
  · exact h.work henabled (channelWork_frame _ c t.st)

theorem foldl_tickChan_frame (l : List Chan) {n : Nat} {s : State} {t : TickState} (h : TickFrame n s t.st) :
    TickFrame (n + l.length * 513) s (l.foldl tickChan t).st := by
  induction l generalizing n t with
  | nil => simpa using h
  | cons c l ih => exact (ih (tickChan_frame h c)).mono (by simp only [List.length_cons]; omega)

theorem tickChans_frame (s : State) : TickFrame (16 * 513) s (tickChans s).st :=
  (foldl_tickChan_frame allChans (.refl s) : TickFrame (0 + 16 * 513) s _).mono (Nat.zero_add _).le

/-! ### The push of a TICK -/

/-- What a store into a buffer is, field by field. -/
theorem writeFrame_eq (s : State) (b : Bool) (i : Nat) (f : Frame) :
    writeFrame s b i f =
      { s with buf0 := if b then s.buf0 else s.buf0.set i f, buf1 := if b then s.buf1.set i f else s.buf1 } := by
  cases b <;> rfl

/-- Everything but the two buffers, which of them is whose, the cursor and the two flags of a swap: what `PUSH` leaves
alone (43_synchronizer.md R171, R173, R174). -/
structure SameButBuffers (s t : State) : Prop where
  chans : t.chans = s.chans
  master : t.master = s.master
  bias : t.bias = s.bias
  cap : t.cap = s.cap
  reqPhase : t.reqPhase = s.reqPhase
  reqCount : t.reqCount = s.reqCount
  fault : t.fault = s.fault
  limitRate : t.limitRate = s.limitRate
  mem : t.mem = s.mem
  busStores : t.busStores = s.busStores
  params : t.params = s.params
  cmdQ : t.cmdQ = s.cmdQ
  reqQ : t.reqQ = s.reqQ
  turns : t.turns = s.turns
  history : t.history = s.history
  dp : t.dp = s.dp
  draws : t.draws = s.draws
  raced : t.raced = s.raced

theorem requestSwap_sameButBuffers (s : State) : SameButBuffers s (requestSwap s) := by
  rcases requestSwap_cases s with ⟨-, -, he⟩ | ⟨-, he⟩ <;> rw [he] <;> constructor <;> rfl

theorem pushFrame_sameButBuffers (f : Frame) (s : State) : SameButBuffers s (pushFrame f s) := by
  rcases pushFrame_cases f s with ⟨-, he⟩ | ⟨-, -, he⟩ | ⟨-, -, he⟩ <;> rw [he]
  · constructor <;> rfl
  · rw [writeFrame_eq]
    constructor <;> rfl
  · rw [writeFrame_eq]
    exact { requestSwap_sameButBuffers _ with }

theorem getBuf_writeFrame (s : State) (b d : Bool) (i : Nat) (f : Frame) :
    getBuf (writeFrame s b i f) d = if d = b then (getBuf s d).set i f else getBuf s d := by
  cases b <;> cases d <;> rfl

/-- A swap moves no frame (43_synchronizer.md R174). -/
theorem getBuf_requestSwap (s : State) (b : Bool) : getBuf (requestSwap s) b = getBuf s b := by
  rcases requestSwap_cases s with ⟨-, -, he⟩ | ⟨-, he⟩ <;> rw [he] <;> rfl

/-- `PUSH` drops the frame or stores it at the write cursor; it moves no other. -/
theorem getBuf_pushFrame (f : Frame) (s : State) (b : Bool) :
    getBuf (pushFrame f s) b = getBuf s b ∨ getBuf (pushFrame f s) b = getBuf (writeFrame s s.wsel s.wcur f) b := by
  rcases pushFrame_cases f s with ⟨-, he⟩ | ⟨-, -, he⟩ | ⟨-, -, he⟩ <;> rw [he]
  · exact .inl rfl
  · exact .inr rfl
  · exact .inr (getBuf_requestSwap _ b)

theorem length_getBuf_pushFrame (f : Frame) (s : State) (b : Bool) :
    (getBuf (pushFrame f s) b).length = (getBuf s b).length := by
  rcases getBuf_pushFrame f s b with he | he <;> rw [he]
  rw [getBuf_writeFrame]
  split
  · exact List.length_set
  · rfl

theorem getBuf_pushFrame_elsewhere (f : Frame) (s : State) {b : Bool} {i : Nat} (h : ¬(b = s.wsel ∧ i = s.wcur)) :
    (getBuf (pushFrame f s) b)[i]? = (getBuf s b)[i]? := by
  rcases getBuf_pushFrame f s b with he | he <;> rw [he]
  rw [getBuf_writeFrame]
  split
  · next hb => exact List.getElem?_set_ne fun hi => h ⟨hb, hi.symm⟩
  · rfl

/-! ### The whole TICK -/

theorem memGet_foldl_storeAll_ne {a : Nat} (stores : List (List (Word × Byte))) (m : Memory)
    (h : ∀ l ∈ stores, ∀ p ∈ l, p.1.toNat ≠ a) : memGet (stores.foldl storeAll m) a = memGet m a := by
  induction stores generalizing m with
  | nil => rfl
  | cons l stores ih =>
    obtain ⟨hl, hrest⟩ := List.forall_mem_cons.mp h
    rw [List.foldl_cons, ih _ hrest, memGet_storeAll_ne l a fun p hp => (hl p hp).symm]

/-- A byte that no store under way goes to reads as before, however many of them have landed. -/
theorem memGet_landed_ne {s : State} {a : Nat} (h : ∀ l ∈ s.busStores, ∀ p ∈ l, p.1.toNat ≠ a) (k : Nat) :
    memGet (landed s k) a = memGet s.mem a :=
  memGet_foldl_storeAll_ne _ _ fun l hl => h l (List.mem_of_mem_take hl)

/-- A TICK pushes some frame after its channels have worked. -/
theorem runTick_eq_pushFrame (s : State) : ∃ f, runTick s = pushFrame f (tickChans s).st := ⟨_, rfl⟩

theorem exec_tick {s : State} (hpending : s.swapPending = false) : exec .tick s = .next (runTick s) :=
  congrArg Host.Outcome.next (whenAccepted_run hpending runTick)

/-- Settles O43: the frame of the channels, then that of the push. -/
theorem tickFrameCondition : Obligations.TickFrameCondition := by
  intro s hpending
  obtain ⟨f, hrun⟩ := runTick_eq_pushFrame s
  have hwork := tickChans_frame s
  have hpush := pushFrame_sameButBuffers f (tickChans s).st
  have hrest := hwork.rest
  have hchan : ∀ c, getChan (pushFrame f (tickChans s).st) c = getChan (tickChans s).st c := fun c => by
    rw [getChan, hpush.chans]
    rfl
  have hbuf : ∀ b, getBuf (tickChans s).st b = getBuf s b := fun b => by
    cases b
    exacts [hrest.buf0, hrest.buf1]
  have hreads := hwork.reads.congr hpush.history hpush.mem hpush.busStores
  refine ⟨_, (exec_tick hpending).trans (congrArg _ hrun), ?bank, ?disabled, ?frames, ?lengths, hreads, ?bytes,
    hpush.master.trans hrest.master, hpush.bias.trans hrest.bias, hpush.cap.trans hrest.cap,
    hpush.reqPhase.trans hrest.reqPhase, hpush.reqCount.trans hrest.reqCount, hpush.fault.trans hrest.fault,
    hpush.limitRate.trans hrest.limitRate, hpush.params.trans hrest.params, hpush.cmdQ.trans hrest.cmdQ,
    hpush.reqQ.trans hrest.reqQ, hpush.turns.trans hrest.turns, hpush.dp.trans hwork.dp,
    hpush.draws.trans hrest.draws, hpush.raced.trans hrest.raced⟩
  case bank => exact fun c => hchan c ▸ hwork.bank c
  case disabled => exact fun c hoff => (hchan c).trans (hwork.disabled c hoff)
  case frames =>
    intro b i helse
    rw [← hrest.wsel, ← hrest.wcur] at helse
    rw [getBuf_pushFrame_elsewhere f _ helse, hbuf]
  case lengths => exact fun b => (length_getBuf_pushFrame f _ b).trans (congrArg List.length (hbuf b))
  case bytes =>
    obtain ⟨new, -, -, -, hmem, -⟩ := hreads
    exact fun a hne => hmem ▸ memGet_landed_ne hne new.length

end Sys2Proof.Machine
end

section
/-! The invariant of 10_state.md R34 at reset and over every step. The word facts come first, then one lemma per named
operation of the machine in the order of the model's files, then the agents' turns. -/

namespace Sys2Proof.Machine

/-! ### Values an operation may store -/

/-- A masked write leaves the bits outside the register's mask at 0 (R34 item 3). -/
theorem maskedWrite_bits {w : Nat} {reg g : BitVec w} (h : reg &&& ~~~g = 0) (m v : BitVec w) :
    maskedWrite reg g m v &&& ~~~g = 0 := by
  rw [maskedWrite_outside (by ext i hi; simp), h]

theorem clearEnable_bits {cnt g : Word} (h : cnt &&& ~~~g = 0) : clearEnable cnt &&& ~~~g = 0 := by
  rw [clearEnable, BitVec.and_assoc, BitVec.and_comm 0x7FFFFFFF, ← BitVec.and_assoc, h]
  exact BitVec.zero_and

theorem headerIdx_le (h : Word) : (headerIdx h).toNat ≤ 88 := by
  simp only [headerIdx, idxMax, BitVec.toNat_ofNat]
  omega

/-- The header's seed is not clamped, so the accumulator may hold the lowest 16-bit number (44_register_bank.md R205). -/
theorem headerAcc_range (h : Word) : -0x8000 ≤ (headerAcc h).toInt ∧ (headerAcc h).toInt ≤ 0x7FFF := by
  have hle := BitVec.le_toInt (h.truncate 16)
  have hlt := BitVec.toInt_lt (x := h.truncate 16)
  rw [headerAcc, BitVec.toInt_signExtend_of_le (by decide)]
  omega

theorem clampedAcc_range (v : Int) :
    -0x8000 ≤ (BitVec.ofInt 17 (clamp v accMin accMax)).toInt ∧
      (BitVec.ofInt 17 (clamp v accMin accMax)).toInt ≤ 0x7FFF := by
  have hrange : -0x7FFF ≤ clamp v accMin accMax ∧ clamp v accMin accMax ≤ 0x7FFF := clamp_range v (by decide)
  rw [BitVec.toInt_ofInt_eq_self (by decide) (by omega) (by omega)]
  omega

theorem clampedIdx_le (v : Int) : (BitVec.ofInt 7 (clamp v 0 idxMax)).toNat ≤ 88 := by
  have hrange : 0 ≤ clamp v 0 idxMax ∧ clamp v 0 idxMax ≤ 88 := clamp_range v (by decide)
  rw [BitVec.toNat_ofInt]
  omega

theorem toNat_and_0x7FFF (x : Half) : (x &&& 0x7FFF).toNat = x.toNat % 2 ^ 15 := by
  rw [BitVec.toNat_and]
  exact Nat.and_two_pow_sub_one_eq_mod x.toNat 15

/-- R34 item 4: a step that shifts out a 1 sets bit 14 from the tap; one that shifts out a 0 loses no other bit. -/
theorem lfsrStep_live {tap x : Half} (htap : tap.getLsbD 14 = true) (hlive : x &&& 0x7FFF ≠ 0) :
    lfsrStep tap x &&& 0x7FFF ≠ 0 := by
  intro hdead
  cases hout : (x &&& 0x7FFF).getLsbD 0 with
  | true =>
    have hstep : lfsrStep tap x = 0x8000 ||| (((x &&& 0x7FFF) >>> 1) ^^^ tap) := if_pos hout
    have hbit := congrArg (fun y => y.getLsbD 14) hdead
    rw [hstep] at hbit
    exact absurd htap (by simpa using hbit)
  | false =>
    have hstep : lfsrStep tap x = (x &&& 0x7FFF) >>> 1 := if_neg (ne_true_of_eq_false hout)
    have heven : (x &&& 0x7FFF).toNat % 2 ≠ 1 := by
      rw [BitVec.getLsbD, Nat.testBit_zero] at hout
      exact of_decide_eq_false hout
    have hne : (x &&& 0x7FFF).toNat ≠ 0 := fun h => hlive (BitVec.eq_of_toNat_eq h)
    have hzero : (lfsrStep tap x &&& 0x7FFF).toNat = 0 := congrArg BitVec.toNat hdead
    rw [toNat_and_0x7FFF, hstep, BitVec.toNat_ushiftRight, Nat.shiftRight_eq_div_pow] at hzero
    have hlow := toNat_and_0x7FFF x
    omega

/-! ### Reset -/

theorem paramsOk_default : ParamsOk Params.default := ⟨by decide, by decide, by decide⟩

theorem chanInv_reset {lfsrInit : Half} (hlive : lfsrInit &&& 0x7FFF ≠ 0) (m : Masks) :
    ChanInv m (Channel.reset lfsrInit) where
  idx_le := Nat.zero_le _
  snapIdx_le := Nat.zero_le _
  acc_range := show -0x8000 ≤ (0 : BitVec 17).toInt ∧ (0 : BitVec 17).toInt ≤ 0x7FFF by decide
  snapAcc_range := show -0x8000 ≤ (0 : BitVec 17).toInt ∧ (0 : BitVec 17).toInt ≤ 0x7FFF by decide
  sad_bits := BitVec.zero_and
  len_bits := BitVec.zero_and
  cnt_bits := BitVec.zero_and
  lfsr_live := hlive

@[simp] theorem getChan_reset (c : Chan) : getChan State.reset c = Channel.reset Params.default.lfsrInit := by
  simp [getChan, State.reset]

@[simp] theorem length_drawnFrames (draw : Nat) (b : Bool) (count : Nat) : (drawnFrames draw b count).length = count := by
  simp [drawnFrames]

/-- Settles O56: every channel is `Channel.reset`, and there is no frame. -/
theorem invariantHoldsAtReset : Obligations.InvariantHoldsAtReset where
  params := paramsOk_default
  chans c := getChan_reset c ▸ chanInv_reset paramsOk_default.init_live _
  bias_bits := BitVec.zero_and
  master_bits := BitVec.zero_and
  unconfigured _ := rfl
  cursor_lt hcap := absurd hcap (lt_irrefl 0)
  pending_full hpending := Bool.noConfusion hpending
  buf0_len := rfl
  buf1_len := rfl
  request hbusy := absurd rfl hbusy
  cap_le := paramsOk_default.capReset_le
  mem_wf := reset_mem_wf

section
variable {s : State}

theorem blockInv_resetBlock (h : BlockInv s) : BlockInv (resetBlock s) :=
  { h with
    chans := fun c => getChan_resetBlock s c ▸ chanInv_reset h.params.init_live _
    bias_bits := BitVec.zero_and
    master_bits := BitVec.zero_and
    unconfigured := fun _ => rfl
    cursor_lt := fun hcap _ => hcap
    pending_full := fun hpending => Bool.noConfusion hpending
    buf0_len := length_drawnFrames ..
    buf1_len := length_drawnFrames ..
    request := fun hbusy => absurd rfl hbusy
    cap_le := h.params.capReset_le }

/-! ### Channels, memory and ports -/

theorem blockInv_setChan {c : Chan} {ch : Channel} (h : BlockInv s) (hch : ChanInv s.params.masks ch) :
    BlockInv (setChan s c ch) :=
  { h with
    chans := fun d => by
      by_cases hd : d = c
      · subst hd
        simpa using hch
      · rw [getChan_setChan_ne s c d ch hd]
        exact h.chans d }

theorem blockInv_setDp (h : BlockInv s) (d : Datapath) : BlockInv (setDp s d) := { h with }

theorem blockInv_emit (h : BlockInv s) (e : PortEvent) : BlockInv (emit e s) := { h with }

theorem blockInv_readMem (h : BlockInv s) (a : Word) (n : Nat) : BlockInv (readMem a n s).2 :=
  { h with mem_wf := storeAll_wf _ h.mem_wf }

theorem blockInv_raiseFault (h : BlockInv s) (f : FaultRecord) : BlockInv (raiseFault f s) := { h with }

theorem blockInv_whenAccepted {run : State → State} (h : BlockInv s)
    (hrun : s.swapPending = false → BlockInv (run s)) : BlockInv (whenAccepted s run) := by
  cases hpending : s.swapPending with
  | true => rwa [whenAccepted_held hpending]
  | false =>
    rw [whenAccepted_run hpending]
    exact hrun hpending

theorem blockInv_whenIdle {run : State → State} (h : BlockInv s) (hrun : s.reqPhase = .idle → BlockInv (run s)) :
    BlockInv (whenIdle s run) := by
  by_cases hidle : s.reqPhase = .idle
  · rw [whenIdle_idle hidle]
    exact hrun hidle
  · rwa [whenIdle_busy hidle]

/-! ### Register bank -/

theorem blockInv_loadHeader (h : BlockInv s) (c : Chan) : BlockInv (loadHeader c s) :=
  blockInv_setChan (blockInv_readMem h _ _)
    { h.chans c with idx_le := headerIdx_le _, acc_range := headerAcc_range _ }

theorem blockInv_restartGenerator (h : BlockInv s) (c : Chan) : BlockInv (restartGenerator c s) := by
  rcases restartGenerator_cases c s with ⟨-, -, he⟩ | ⟨-, -, he⟩ | ⟨-, he⟩ <;> rw [he]
  · exact blockInv_setChan h { h.chans c with }
  · exact blockInv_setChan h { h.chans c with lfsr_live := h.params.init_live }
  · exact h

theorem blockInv_reloadChan (h : BlockInv s) (c : Chan) : BlockInv (reloadChan c s) := by
  have hs1 : BlockInv (setChan s c { getChan s c with ptr := (getChan s c).sad, tcnt := (getChan s c).tmr }) :=
    blockInv_setChan h { h.chans c with }
  rcases reloadChan_cases c s with ⟨-, he⟩ | ⟨-, he⟩ | ⟨-, he⟩ <;> rw [he]
  · exact hs1
  · exact blockInv_loadHeader hs1 c
  · exact blockInv_restartGenerator hs1 c

theorem blockInv_writeCnt (h : BlockInv s) (c : Chan) (m v : Word) : BlockInv (writeCnt c m v s) := by
  have hs1 : BlockInv (setChan s c
      { getChan s c with cnt := maskedWrite (getChan s c).cnt s.params.masks.cnt m v }) :=
    blockInv_setChan h { h.chans c with cnt_bits := maskedWrite_bits (h.chans c).cnt_bits m v }
  rcases writeCnt_cases c m v s with ⟨-, he⟩ | ⟨-, he⟩ <;> rw [he]
  · exact blockInv_reloadChan hs1 c
  · exact hs1

/-! ### ADPCM decoder -/

theorem blockInv_decodeStep (h : BlockInv s) (n : BitVec 4) (c : Chan) : BlockInv (decodeStep n c s) :=
  blockInv_setChan h { h.chans c with idx_le := clampedIdx_le _, acc_range := clampedAcc_range _ }

theorem blockInv_captureSnap (h : BlockInv s) (c : Chan) : BlockInv (captureSnap c s) := by
  unfold captureSnap
  dsimp only
  split
  · exact blockInv_setChan h
      { h.chans c with snapIdx_le := (h.chans c).idx_le, snapAcc_range := (h.chans c).acc_range }
  · exact h

theorem blockInv_restoreSnap (h : BlockInv s) (c : Chan) : BlockInv (restoreSnap c s) :=
  blockInv_setChan h { h.chans c with idx_le := (h.chans c).snapIdx_le, acc_range := (h.chans c).snapAcc_range }

theorem blockInv_advanceAdpcm (h : BlockInv s) (c : Chan) : BlockInv (advanceAdpcm c s) :=
  blockInv_decodeStep (blockInv_readMem (blockInv_captureSnap h c) _ _) _ c

/-! ### Channel engine -/

theorem blockInv_rawSample (h : BlockInv s) (fmt : Format) (c : Chan) : BlockInv (rawSample fmt c s).2 := by
  cases fmt with
  | pcm8 => exact blockInv_readMem h _ _
  | pcm16 => exact blockInv_readMem h _ _
  | adpcm => exact h
  | psg =>
    unfold rawSample
    dsimp only
    split <;> exact h

theorem blockInv_advance (h : BlockInv s) (fmt : Format) (c : Chan) : BlockInv (advance fmt c s) := by
  cases fmt with
  | pcm8 => exact blockInv_setChan h { h.chans c with }
  | pcm16 => exact blockInv_setChan h { h.chans c with }
  | adpcm => exact blockInv_advanceAdpcm h c
  | psg =>
    unfold advance
    dsimp only
    split
    · exact blockInv_setChan h { h.chans c with }
    · exact blockInv_setChan h { h.chans c with lfsr_live := lfsrStep_live h.params.tap_live (h.chans c).lfsr_live }
    · exact h

theorem blockInv_wrapToLoop (h : BlockInv s) (fmt : Format) (c : Chan) : BlockInv (wrapToLoop fmt c s) := by
  have hs1 : BlockInv (setChan s c { getChan s c with ptr := loopStart (getChan s c) }) :=
    blockInv_setChan h { h.chans c with }
  cases fmt with
  | adpcm => exact blockInv_restoreSnap hs1 c
  | pcm8 | pcm16 | psg => exact hs1

theorem blockInv_stopChan (h : BlockInv s) (c : Chan) : BlockInv (stopChan c s) :=
  blockInv_setChan h { h.chans c with cnt_bits := clearEnable_bits (h.chans c).cnt_bits }

theorem blockInv_stopIfManualStops (h : BlockInv s) (c : Chan) : BlockInv (stopIfManualStops c s) := by
  rcases stopIfManualStops_cases c s with ⟨-, he⟩ | ⟨-, he⟩ <;> rw [he]
  · exact blockInv_stopChan h c
  · exact h

theorem blockInv_endOfData (h : BlockInv s) (fmt : Format) (c : Chan) : BlockInv (endOfData fmt c s) := by
  rcases endOfData_cases fmt c s with ⟨-, he⟩ | ⟨-, -, he⟩ <;> rw [he]
  · exact h
  · rcases atEnd_cases fmt c s with he | he | he <;> rw [he]
    · exact blockInv_stopChan h c
    · exact blockInv_wrapToLoop h fmt c
    · exact h

/-- The timer counter may hold any value. -/
theorem blockInv_setTcnt (h : BlockInv s) (c : Chan) (t : Half) :
    BlockInv (setChan s c { getChan s c with tcnt := t }) :=
  blockInv_setChan h { h.chans c with }

theorem blockInv_overflowLoop (h : BlockInv s) (fmt : Format) (c : Chan) (passes : Nat) :
    BlockInv (overflowLoop fmt c passes s) := by
  induction passes generalizing s with
  | zero => exact h
  | succ n ih =>
    rw [overflowLoop_succ]
    have hpass := blockInv_endOfData (blockInv_advance (blockInv_setTcnt h c
      (timerAdd (getChan s c).tcnt (getChan s c).tmr).1) fmt c) fmt c
    split
    · exact ih hpass
    · exact hpass

theorem blockInv_timerStep (h : BlockInv s) (fmt : Format) (c : Chan) : BlockInv (timerStep fmt c s) := by
  rcases timerStep_cases fmt c s with ⟨-, he⟩ | ⟨-, he⟩ <;> rw [he]
  · exact blockInv_setTcnt h c _
  · exact blockInv_overflowLoop (blockInv_setTcnt h c _) fmt c timerPasses

theorem blockInv_channelWork (h : BlockInv s) (fmt : Format) (c : Chan) : BlockInv (channelWork fmt c s).2 := by
  rw [channelWork_state]
  exact blockInv_timerStep (blockInv_rawSample h fmt c) fmt c

/-! ### Synchronizer -/

theorem blockInv_writeFrame (h : BlockInv s) (b : Bool) (i : Nat) (f : Frame) : BlockInv (writeFrame s b i f) := by
  rw [writeFrame_eq]
  refine { h with buf0_len := ?_, buf1_len := ?_ }
  · cases b <;> simp [h.buf0_len]
  · cases b <;> simp [h.buf1_len]

theorem blockInv_swapBuffers (h : BlockInv s) : BlockInv (swapBuffers s) :=
  { h with
    unconfigured := fun _ => rfl
    cursor_lt := fun hcap _ => hcap
    pending_full := fun hpending => Bool.noConfusion hpending }

/-- Between the store that fills the write buffer and the swap, the cursor stands at the end: either the swap puts it
back or `SWAP_PENDING` says so. -/
theorem blockInv_requestSwap_full (h : BlockInv s) (hcap : s.cap ≠ 0) :
    BlockInv (requestSwap { s with wcur := s.cap }) := by
  rcases requestSwap_cases { s with wcur := s.cap } with ⟨-, -, he⟩ | ⟨-, he⟩ <;> rw [he]
  · exact { h with
      unconfigured := fun h0 => absurd h0 hcap
      cursor_lt := fun _ hnot => Bool.noConfusion hnot
      pending_full := fun _ => ⟨rfl, Nat.pos_of_ne_zero hcap⟩ }
  · show BlockInv (swapBuffers s)
    exact blockInv_swapBuffers h

theorem blockInv_pushFrame (h : BlockInv s) (hpending : s.swapPending = false) (f : Frame) :
    BlockInv (pushFrame f s) := by
  have hw := blockInv_writeFrame h s.wsel s.wcur f
  rw [writeFrame_eq] at hw
  rcases pushFrame_cases f s with ⟨-, he⟩ | ⟨hcap, hroom, he⟩ | ⟨hcap, hfull, he⟩ <;> rw [he]
  · exact h
  · have hlt := h.cursor_lt (Nat.pos_of_ne_zero hcap) hpending
    rw [writeFrame_eq]
    exact { hw with
      unconfigured := fun h0 => absurd h0 hcap
      cursor_lt := fun _ _ => lt_of_le_of_ne hlt hroom
      pending_full := fun hp => absurd (hpending.symm.trans hp) Bool.false_ne_true }
  · rw [writeFrame_eq, hfull]
    exact blockInv_requestSwap_full hw hcap

theorem blockInv_releaseSwap (h : BlockInv s) : BlockInv (releaseSwap s) := by
  rcases releaseSwap_cases s with ⟨-, -, he⟩ | ⟨-, he⟩ <;> rw [he]
  · exact blockInv_swapBuffers h
  · exact h

theorem blockInv_resizeTo {n : Word} (h : BlockInv s) (hmax : n.toNat ≤ s.params.bufMax)
    (hpending : s.swapPending = false) (hidle : s.reqPhase = .idle) : BlockInv (resizeTo n s) :=
  { h with
    unconfigured := fun _ => rfl
    cursor_lt := fun hcap _ => hcap
    pending_full := fun hp => absurd (hpending.symm.trans hp) Bool.false_ne_true
    buf0_len := length_drawnFrames ..
    buf1_len := length_drawnFrames ..
    request := fun hbusy => absurd hidle hbusy
    cap_le := hmax }

theorem blockInv_beginWait {n : Word} (h : BlockInv s) (hn : n ≠ 0) (hcap : n.toNat = s.cap) :
    BlockInv (beginWait n s) :=
  { h with request := fun _ => ⟨hcap, hn⟩ }

theorem blockInv_startRequest (h : BlockInv s) (hidle : s.reqPhase = .idle) (n : Word) :
    BlockInv (startRequest n s) := by
  rcases startRequest_cases n s with ⟨-, he⟩ | ⟨-, -, he⟩ | ⟨hn, -, hcap, he⟩ | ⟨-, -, -, -, he⟩ |
    ⟨hn, hmax, -, hpending, he⟩ <;> rw [he]
  · exact blockInv_raiseFault h _
  · exact blockInv_raiseFault h _
  · exact blockInv_beginWait h hn hcap
  · exact blockInv_raiseFault h _
  · exact blockInv_beginWait (blockInv_resizeTo h hmax hpending hidle) hn rfl

theorem blockInv_deliver (h : BlockInv s) (l : List Frame) : BlockInv (deliver l s) :=
  { h with request := fun hbusy => absurd rfl hbusy }

theorem blockInv_takeFrames (h : BlockInv s) : BlockInv (takeFrames s) := by
  rcases takeFrames_cases s with ⟨-, -, he⟩ | ⟨-, he⟩ <;> rw [he]
  · exact blockInv_deliver h _
  · exact h

theorem blockInv_expireWait (h : BlockInv s) : BlockInv (expireWait s) := by
  rcases expireWait_cases s with ⟨hwait, -, he⟩ | ⟨-, he⟩ <;> rw [he]
  · have hreq := h.request (by rw [hwait]; decide)
    exact { h with request := fun _ => hreq }
  · exact h

theorem blockInv_fallBack (h : BlockInv s) : BlockInv (fallBack s) := by
  rcases fallBack_cases s with ⟨-, he⟩ | ⟨-, he⟩ <;> rw [he]
  · exact blockInv_deliver h _
  · exact h

/-! ### TICK -/

theorem blockInv_foldl_tickChan (l : List Chan) {t : TickState} (h : BlockInv t.st) :
    BlockInv (l.foldl tickChan t).st := by
  induction l generalizing t with
  | nil => exact h
  | cons c l ih =>
    refine ih ?_
    rcases tickChan_cases t c with ⟨-, he⟩ | ⟨-, he⟩ <;> rw [he]
    · exact h
    · exact blockInv_channelWork h _ c

/-- The channels cannot stall the producer, so the push finds room at the cursor. -/
theorem blockInv_runTick (h : BlockInv s) (hpending : s.swapPending = false) : BlockInv (runTick s) := by
  obtain ⟨f, hrun⟩ := runTick_eq_pushFrame s
  rw [hrun]
  exact blockInv_pushFrame (blockInv_foldl_tickChan allChans h)
    ((tickChans_frame s).rest.swapPending.trans hpending) f

/-! ### Operations with an encoding -/

/-- Every operation that an encoding stands for completes and keeps the invariant. The internal steps do so only where
the rules take them: `SWAP.REQ` alone would mark a swap pending at any cursor. -/
theorem exec_encoded_keeps_blockInv {i : Instr} (henc : i.isInternal = false) (h : BlockInv s) :
    ∃ t, exec i s = .next t ∧ BlockInv t := by
  cases i with
  | wrCnt c m v => exact ⟨_, rfl, blockInv_whenAccepted h fun _ => blockInv_writeCnt h c m v⟩
  | wrSad c m v =>
    exact ⟨_, rfl, blockInv_whenAccepted h fun _ =>
      blockInv_setChan h { h.chans c with sad_bits := maskedWrite_bits (h.chans c).sad_bits m v }⟩
  | wrTmr c m v | wrPnt c m v =>
    exact ⟨_, rfl, blockInv_whenAccepted h fun _ => blockInv_setChan h { h.chans c with }⟩
  | wrLen c m v =>
    exact ⟨_, rfl, blockInv_whenAccepted h fun _ =>
      blockInv_setChan h { h.chans c with len_bits := maskedWrite_bits (h.chans c).len_bits m v }⟩
  | wrMaster m v =>
    exact ⟨_, rfl, blockInv_whenAccepted h fun _ => { h with master_bits := maskedWrite_bits h.master_bits _ _ }⟩
  | wrBias m v =>
    exact ⟨_, rfl, blockInv_whenAccepted h fun _ => { h with bias_bits := maskedWrite_bits h.bias_bits _ _ }⟩
  | tick => exact ⟨_, rfl, blockInv_whenAccepted h fun hpending => blockInv_runTick h hpending⟩
  | rdCnt c | rdSad c | rdTmr c | rdPnt c | rdLen c | rdMaster | rdBias =>
    exact ⟨_, rfl, blockInv_whenAccepted h fun _ => blockInv_emit h _⟩
  | reservedFx code => exact ⟨_, rfl, blockInv_whenAccepted h fun _ => blockInv_raiseFault h _⟩
  | req n => exact ⟨_, rfl, blockInv_whenIdle h fun hidle => blockInv_startRequest h hidle n⟩
  | nib0 c | nib1 c | nib2 c | nib3 c | nib4 c | nib5 c | nib6 c | nib7 c | nib8 c | nib9 c | nibA c | nibB c
  | nibC c | nibD c | nibE c | nibF c => exact ⟨_, rfl, blockInv_decodeStep h _ c⟩
  | formatPcm8 c | formatPcm16 c | formatAdpcm c | formatPsg c =>
    exact ⟨_, rfl, blockInv_setDp (blockInv_channelWork h _ c) _⟩
  | repeatManual c | repeatReserved c => exact ⟨_, rfl, blockInv_stopIfManualStops h c⟩
  | repeatLoop c => exact ⟨_, rfl, blockInv_wrapToLoop h _ c⟩
  | repeatOneshot c => exact ⟨_, rfl, blockInv_stopChan h c⟩
  | _ => cases henc

/-- No command word is an internal step (30_encoding.md R87, R89). -/
theorem decodeCommand_isInternal (w : BitVec 72) : (decodeCommand w).isInternal = false := by
  unfold decodeCommand
  dsimp only
  repeat' split
  all_goals rfl

/-! ### Turns -/

theorem producerTurn_keeps_blockInv (h : BlockInv s) : ∃ t, producerTurn s = .next t ∧ BlockInv t := by
  cases hpending : s.swapPending with
  | true => exact ⟨releaseSwap s, by rw [producerTurn, hpending]; rfl, blockInv_releaseSwap h⟩
  | false =>
    cases hq : s.cmdQ with
    | nil => exact ⟨s, by simp [producerTurn, hpending, hq], h⟩
    | cons w rest =>
      rw [producerTurn_command hq hpending]
      exact exec_encoded_keeps_blockInv (decodeCommand_isInternal w) { h with }

theorem consumerTurn_keeps_blockInv (h : BlockInv s) (deadlinePassed : Bool) :
    ∃ t, consumerTurn deadlinePassed s = .next t ∧ BlockInv t := by
  cases hphase : s.reqPhase with
  | idle =>
    cases hq : s.reqQ with
    | nil => exact ⟨s, by simp [consumerTurn, hphase, hq], h⟩
    | cons n rest =>
      rw [consumerTurn_request hq hphase]
      exact exec_encoded_keeps_blockInv (i := .req n) rfl { h with }
  | waiting =>
    cases hready : s.ready with
    | true => exact ⟨takeFrames s, by simp [consumerTurn, hphase, hready, exec, execReqTake], blockInv_takeFrames h⟩
    | false =>
      cases deadlinePassed with
      | true =>
        exact ⟨expireWait s, by simp [consumerTurn, hphase, hready, exec, execReqExpire], blockInv_expireWait h⟩
      | false => exact ⟨s, by simp [consumerTurn, hphase, hready], h⟩
  | expired => exact ⟨fallBack s, by simp [consumerTurn, hphase, exec, execReqFallback], blockInv_fallBack h⟩

theorem blockInv_of_next {r : Result} {t : State} (hkeeps : ∃ u, r = .next u ∧ BlockInv u) (ht : r = .next t) :
    BlockInv t := by
  obtain ⟨u, hu, hinv⟩ := hkeeps
  exact Host.Outcome.next.inj (hu.symm.trans ht) ▸ hinv

end

/-- Settles O57, by the turn that the step takes; taking it off the list changes nothing the invariant speaks of. -/
theorem everyStepKeepsTheInvariant : Obligations.EveryStepKeepsTheInvariant := by
  intro s t h hstep
  rcases step_cases hstep with ⟨-, rfl⟩ | ⟨a, ts, -, hturn⟩
  · exact h
  have hs : BlockInv { s with turns := ts } := { h with }
  rcases hturn with ⟨-, -, hrun⟩ | ⟨-, -, hrun⟩ | ⟨-, -, hrun⟩ | ⟨l, -, rfl⟩ | ⟨x, v, -, rfl⟩ | ⟨-, rfl⟩
  · exact blockInv_of_next (producerTurn_keeps_blockInv hs) hrun
  · exact blockInv_of_next (consumerTurn_keeps_blockInv hs false) hrun
  · exact blockInv_of_next (consumerTurn_keeps_blockInv hs true) hrun
  · exact { h with }
  · exact { h with mem_wf := memPut_wf x v h.mem_wf }
  · exact blockInv_resetBlock hs

end Sys2Proof.Machine
end

section
/-! Sample memory as it is stored to and read (20_memory.md): the turn of another master's store, and the number that the
bytes of a read make. -/

namespace Sys2Proof.Machine

/-- A turn in which another master stores a byte always completes: nothing in the block holds it (20_memory.md R60). -/
theorem step_poke {s : State} {a : Word} {v : Byte} {ts : List Turn} (hturn : s.turns = .poke a v :: ts) :
    step s = .next { s with turns := ts, mem := memPut s.mem a.toNat v } :=
  step_of_turn hturn

@[simp] theorem memBytes_zero (m : Memory) (a : Word) : memBytes m a 0 = 0 := rfl

/-- The bytes from offset `i` on are the byte there, its address taken mod 2^32, and 256 times the bytes from the next
offset on (20_memory.md R52). -/
theorem memBytes_at_offset_succ (m : Memory) (a : Word) (i n : Nat) :
    memBytes m (a + BitVec.ofNat 32 i) (n + 1) =
      (memGet m ((a.toNat + i) % 2 ^ 32)).toNat + 256 * memBytes m (a + BitVec.ofNat 32 (i + 1)) n := by
  have haddr : (a + BitVec.ofNat 32 i).toNat = (a.toNat + i) % 2 ^ 32 := by
    rw [BitVec.toNat_add, BitVec.toNat_ofNat, Nat.add_mod_mod]
  have hnext : a + BitVec.ofNat 32 i + 1 = a + BitVec.ofNat 32 (i + 1) := by
    rw [BitVec.ofNat_add, ← BitVec.add_assoc]
    rfl
  rw [memBytes, haddr, hnext]

theorem memBytes_lt (m : Memory) (a : Word) (n : Nat) : memBytes m a n < 256 ^ n := by
  induction n generalizing a with
  | zero => exact Nat.one_pos
  | succ n ih =>
    have hbyte := (memGet m a.toNat).isLt
    have hrest := ih (a + 1)
    rw [memBytes, Nat.pow_succ']
    omega

/-- A read of up to 4 bytes fits the word that carries the answer, so nothing of its number is cut off. The address is
written as offset 0, where `memBytes_at_offset_succ` starts. -/
theorem memValue_toNat (m : Memory) (a : Word) {n : Nat} (hn : n ≤ 4) :
    (memValue m a n).toNat = memBytes m (a + BitVec.ofNat 32 0) n := by
  have hfits : memBytes m a n < 2 ^ 32 :=
    Nat.lt_of_lt_of_le (memBytes_lt m a n) (Nat.pow_le_pow_right (by decide) hn)
  rw [memValue, BitVec.toNat_ofNat, Nat.mod_eq_of_lt hfits, BitVec.add_zero]

/-- Settles O59: the store by the laws of a byte written, the reads byte by byte from the lowest address up. -/
theorem storesAndLittleEndianReads : Obligations.StoresAndLittleEndianReads := by
  refine ⟨fun s a v ts hwf hturn => ?store, fun s a => ⟨?one, ?two, ?four⟩⟩
  case store =>
    exact ⟨_, step_poke hturn, memGet_memPut_same a.toNat v hwf, fun b hb => memGet_memPut_ne a.toNat b v hb,
      memPut_wf a v hwf⟩
  case one | two | four =>
    rw [memValue_toNat s.mem a (by decide)]
    simp only [memBytes_at_offset_succ, memBytes_zero, Nat.reduceAdd]
    omega

end Sys2Proof.Machine
end

section
/-! Decoding and encoding (30_encoding.md R71, R82, R86 to R89). The fields of a command word and of its code byte come
first, then everything a command word can decode to, then the two ways round between operations and encodings. -/

namespace Sys2Proof

/-! ### The fields of a command word -/

@[simp] theorem commandCode_packCommand (code : Byte) (m v : Word) : commandCode (packCommand code m v) = code := by
  rw [commandCode, packCommand, BitVec.extractLsb'_append_eq_of_le (by decide)]
  exact BitVec.extractLsb'_append_eq_left

@[simp] theorem commandMask_packCommand (code : Byte) (m v : Word) : commandMask (packCommand code m v) = m := by
  rw [commandMask, packCommand, BitVec.extractLsb'_append_eq_of_le (by decide)]
  exact BitVec.extractLsb'_append_eq_right

@[simp] theorem commandData_packCommand (code : Byte) (m v : Word) : commandData (packCommand code m v) = v :=
  BitVec.extractLsb'_append_eq_right

/-- A command word is its three fields and nothing else (R86). -/
theorem packCommand_fields (w : BitVec 72) : packCommand (commandCode w) (commandMask w) (commandData w) = w := by
  have hhigh : commandCode w ++ commandMask w = w.extractLsb' 32 40 :=
    BitVec.extractLsb'_append_extractLsb'_eq_extractLsb' (start₁ := 32) (len₁ := 32) rfl
  have hall : w.extractLsb' 32 40 ++ commandData w = w.extractLsb' 0 72 :=
    BitVec.extractLsb'_append_extractLsb'_eq_extractLsb' (start₁ := 0) (len₁ := 32) rfl
  rw [packCommand, hhigh, hall, BitVec.extractLsb'_eq_self]

/-! ### The fields of a code byte -/

@[simp] theorem opcode_packCode (op : BitVec 4) (c : Chan) : (packCode op c).extractLsb' 4 4 = op :=
  BitVec.extractLsb'_append_eq_left

@[simp] theorem channelBits_packCode (op : BitVec 4) (c : Chan) :
    (packCode op c).extractLsb' 0 4 = BitVec.ofFin (w := 4) c :=
  BitVec.extractLsb'_append_eq_right

@[simp] theorem codeChan_packCode (op : BitVec 4) (c : Chan) : codeChan (packCode op c) = c :=
  congrArg BitVec.toFin (channelBits_packCode op c)

theorem packCode_fields (code : Byte) : packCode (code.extractLsb' 4 4) (codeChan code) = code := by
  have hall : packCode (code.extractLsb' 4 4) (codeChan code) = code.extractLsb' 0 8 :=
    BitVec.extractLsb'_append_extractLsb'_eq_extractLsb' (start₁ := 0) (len₁ := 4) rfl
  rw [hall, BitVec.extractLsb'_eq_self]

theorem toNat_packCode (op : BitVec 4) (c : Chan) : (packCode op c).toNat = 16 * op.toNat + c.val := by
  have hdisjoint := Nat.two_pow_add_eq_or_of_lt (i := 4) c.isLt op.toNat
  rw [packCode, BitVec.toNat_append, Nat.shiftLeft_eq, Nat.mul_comm]
  exact hdisjoint.symm

/-- Every command word is a row of the table, a channel, a mask and a value (R86, R87). -/
theorem exists_eq_packCommand (w : BitVec 72) : ∃ op c m v, w = packCommand (packCode op c) m v :=
  ⟨(commandCode w).extractLsb' 4 4, codeChan (commandCode w), commandMask w, commandData w, by
    rw [packCode_fields, packCommand_fields]⟩

/-! ### The codes that are listed -/

/-- The codes of R89 by their two halves. -/
theorem isReservedCode_packCode (op : BitVec 4) (c : Chan) :
    isReservedCode (packCode op c) = true ↔
      op.toNat = 15 ∨ ((op.toNat = 5 ∨ op.toNat = 6 ∨ op.toNat = 7 ∨ op.toNat = 13 ∨ op.toNat = 14) ∧ c ≠ 0) := by
  have hzero : BitVec.ofFin (w := 4) c = 0 ↔ c = 0 := ⟨congrArg BitVec.toFin, congrArg (BitVec.ofFin (w := 4))⟩
  simp [isReservedCode, ← hzero, or_assoc]

theorem isReservedCode_iff (code : Byte) :
    isReservedCode code = true ↔
      code.toNat / 16 = 15 ∨
        ((code.toNat / 16 = 5 ∨ code.toNat / 16 = 6 ∨ code.toNat / 16 = 7 ∨ code.toNat / 16 = 13 ∨
          code.toNat / 16 = 14) ∧ code.toNat % 16 ≠ 0) := by
  rw [← packCode_fields code, isReservedCode_packCode, toNat_packCode]
  generalize codeChan code = c
  have hc := c.isLt
  rw [Ne, show c = 0 ↔ c.val = 0 from Fin.ext_iff]
  omega

/-- The codes of the seven writes (R87) by their two halves. -/
theorem writeCode_packCode (op : BitVec 4) (c : Chan) :
    ((packCode op c).toNat ≤ 0x50 ∨ packCode op c = 0x60) ↔
      op.toNat ≤ 4 ∨ ((op.toNat = 5 ∨ op.toNat = 6) ∧ c = 0) := by
  have hc := c.isLt
  rw [show packCode op c = 0x60 ↔ (packCode op c).toNat = 0x60 from BitVec.toNat_eq, toNat_packCode,
    show c = 0 ↔ c.val = 0 from Fin.ext_iff]
  omega

theorem not_writeCode_of_isReservedCode {code : Byte} (h : isReservedCode code = true) :
    ¬(code.toNat ≤ 0x50 ∨ code = 0x60) := by
  rw [isReservedCode_iff] at h
  rw [show code = 0x60 ↔ code.toNat = 0x60 from BitVec.toNat_eq]
  omega

/-! ### What a command word decodes to -/

theorem opcode_eq_ofNat {op : BitVec 4} {k : Nat} (h : op.toNat = k) : op = BitVec.ofNat 4 k := by
  rw [← h, BitVec.ofNat_toNat, BitVec.setWidth_eq]

/-- Everything a command word can decode to: a reserved command with its code, a write that keeps every bit of the word,
or a command of which the code alone counts (R86, R87, R89). -/
theorem decodeCommand_cases (w : BitVec 72) :
    (isReservedCode (commandCode w) = true ∧ decodeCommand w = .reservedFx (commandCode w)) ∨
      (¬isReservedCode (commandCode w) = true ∧ (∀ code, decodeCommand w ≠ .reservedFx code) ∧
        (((commandCode w).toNat ≤ 0x50 ∨ commandCode w = 0x60) ∧ encode (decodeCommand w) = some (.command w) ∨
          ¬((commandCode w).toNat ≤ 0x50 ∨ commandCode w = 0x60) ∧
            encode (decodeCommand w) = some (.command (packCommand (commandCode w) 0 0)))) := by
  obtain ⟨op, c, m, v, rfl⟩ := exists_eq_packCommand w
  rw [commandCode_packCommand, isReservedCode_packCode, writeCode_packCode]
  simp only [decodeCommand, commandCode_packCommand, commandMask_packCommand, commandData_packCommand,
    opcode_packCode, codeChan_packCode]
  have hlt := op.isLt
  split
  case h_1 hop | h_2 hop | h_3 hop | h_4 hop | h_5 hop =>
    obtain rfl := opcode_eq_ofNat hop
    exact .inr ⟨by simp, nofun, .inl ⟨.inl (by decide), rfl⟩⟩
  case h_6 hop | h_7 hop =>
    obtain rfl := opcode_eq_ofNat hop
    split
    case isTrue hc =>
      subst hc
      exact .inr ⟨by simp, nofun, .inl ⟨by simp, rfl⟩⟩
    case isFalse hc => exact .inl ⟨by simp [hc], rfl⟩
  case h_8 hop | h_14 hop | h_15 hop =>
    obtain rfl := opcode_eq_ofNat hop
    split
    case isTrue hc =>
      subst hc
      exact .inr ⟨by simp, nofun, .inr ⟨by simp, rfl⟩⟩
    case isFalse hc => exact .inl ⟨by simp [hc], rfl⟩
  case h_9 hop | h_10 hop | h_11 hop | h_12 hop | h_13 hop =>
    obtain rfl := opcode_eq_ofNat hop
    exact .inr ⟨by simp, nofun, .inr ⟨by simp, rfl⟩⟩
  case h_16 =>
    have hop : op.toNat = 15 := by
      simp only [imp_false] at *
      omega
    exact .inl ⟨.inl hop, rfl⟩

theorem decodeCommand_of_isReservedCode {w : BitVec 72} (h : isReservedCode (commandCode w) = true) :
    decodeCommand w = .reservedFx (commandCode w) := by
  rcases decodeCommand_cases w with ⟨-, he⟩ | ⟨hnot, -⟩
  · exact he
  · exact absurd h hnot

theorem isReservedCode_of_decodeCommand {w : BitVec 72} {code : Byte} (h : decodeCommand w = .reservedFx code) :
    isReservedCode (commandCode w) = true ∧ code = commandCode w := by
  rcases decodeCommand_cases w with ⟨hres, he⟩ | ⟨-, hne, -⟩
  · exact ⟨hres, Instr.reservedFx.inj (h.symm.trans he)⟩
  · exact absurd h (hne code)

/-! ### The two ways round -/

/-- Each encoded row decodes to itself: the commands by the fields of their word, the reserved command by its code, the
rest by their table. -/
theorem decode_of_encode_eq_some {i : Instr} {e : Encoded} (hwf : i.wf = true) (henc : encode i = some e) :
    decode e = i := by
  cases i with
  | wrCnt c m v | wrSad c m v | wrTmr c m v | wrPnt c m v | wrLen c m v | wrMaster m v | wrBias m v | tick
  | rdCnt c | rdSad c | rdTmr c | rdPnt c | rdLen c | rdMaster | rdBias =>
    cases henc
    simp [decode, decodeCommand]
  | reservedFx code =>
    cases henc
    exact (decodeCommand_of_isReservedCode (by rwa [commandCode_packCommand])).trans
      (by rw [commandCode_packCommand])
  | req n => cases henc; rfl
  | nib0 c | nib1 c | nib2 c | nib3 c | nib4 c | nib5 c | nib6 c | nib7 c | nib8 c | nib9 c | nibA c | nibB c
  | nibC c | nibD c | nibE c | nibF c => cases henc; rfl
  | formatPcm8 c | formatPcm16 c | formatAdpcm c | formatPsg c => cases henc; rfl
  | repeatManual c | repeatLoop c | repeatOneshot c | repeatReserved c => cases henc; rfl
  | _ => cases henc

/-- Settles O1, row by row of the tables. -/
theorem decodeOfEncodeIsTheOperation : Obligations.DecodeOfEncodeIsTheOperation :=
  fun _ _ => decode_of_encode_eq_some

theorem Instr.wf_of_ne_reservedFx {i : Instr} (h : ∀ code, i ≠ .reservedFx code) : i.wf = true := by
  cases i with
  | reservedFx code => exact absurd rfl (h code)
  | _ => rfl

theorem decodeCommand_wf (w : BitVec 72) : (decodeCommand w).wf = true := by
  rcases decodeCommand_cases w with ⟨hres, he⟩ | ⟨-, hne, -⟩
  · rw [he]
    exact hres
  · exact Instr.wf_of_ne_reservedFx hne

/-- Wherever an encoding stands, it names a well-formed operation and no internal step (R71, R82, R87, R88). -/
theorem decode_wf_and_not_internal (e : Encoded) : (decode e).wf = true ∧ (decode e).isInternal = false := by
  cases e with
  | command w => exact ⟨decodeCommand_wf w, Machine.decodeCommand_isInternal w⟩
  | request n => exact ⟨rfl, rfl⟩
  | nibble c n =>
    show (decodeNibble c n).wf = true ∧ (decodeNibble c n).isInternal = false
    unfold decodeNibble
    split <;> exact ⟨rfl, rfl⟩
  | formatField c cnt =>
    show (decodeFormatField c cnt).wf = true ∧ (decodeFormatField c cnt).isInternal = false
    unfold decodeFormatField
    split <;> exact ⟨rfl, rfl⟩
  | repeatField c cnt =>
    show (decodeRepeatField c cnt).wf = true ∧ (decodeRepeatField c cnt).isInternal = false
    unfold decodeRepeatField
    split <;> exact ⟨rfl, rfl⟩

/-- The encoding of a command word keeps its code byte, and of a write the whole word. -/
theorem encode_decodeCommand (w : BitVec 72) :
    ∃ v, encode (decodeCommand w) = some (.command v) ∧ commandCode v = commandCode w ∧
      ((commandCode w).toNat ≤ 0x50 ∨ commandCode w = 0x60 → v = w) := by
  rcases decodeCommand_cases w with ⟨hres, he⟩ | ⟨-, -, ⟨-, he⟩ | ⟨hread, he⟩⟩
  · exact ⟨_, congrArg encode he, commandCode_packCommand _ _ _,
      fun hwrite => absurd hwrite (not_writeCode_of_isReservedCode hres)⟩
  · exact ⟨w, he, rfl, fun _ => rfl⟩
  · exact ⟨_, he, commandCode_packCommand _ _ _, fun hwrite => absurd hwrite hread⟩

/-- Settles O2: the first part word by word, the second encoding by encoding. -/
theorem everyCommandWordIsAnOperation : Obligations.EveryCommandWordIsAnOperation :=
  ⟨encode_decodeCommand, decode_wf_and_not_internal⟩

/-- Settles O3: the list read off the code's number is the one read off its two halves, and the decoder follows it. -/
theorem reservedCodesAreThoseListed : Obligations.ReservedCodesAreThoseListed := by
  intro w op low listed
  have hlisted : isReservedCode (commandCode w) = true ↔ listed := isReservedCode_iff (commandCode w)
  exact ⟨fun h => decodeCommand_of_isReservedCode (hlisted.mpr h),
    fun ⟨_, h⟩ => hlisted.mp (isReservedCode_of_decodeCommand h).1⟩

/-- Settles O4: each word is evaluated. -/
theorem listedWordsDecode : Obligations.ListedWordsDecode :=
  ⟨rfl, rfl, rfl, rfl, rfl, rfl, rfl, rfl, rfl⟩

end Sys2Proof
end

section
/-! A word of spec/opcode_table.json placed at its port (log entries 2 and 3): the port takes it, and the next step runs
what it decodes to. -/

namespace Sys2Proof.Machine

/-! ### The two ports -/

/-- The command offered is the one that the next step runs. -/
theorem step_offerCommand (w : BitVec 72) (s : State) :
    step (offerCommand w s) = exec (decode (.command w)) { s with swapPending := false, raced := false } :=
  stepRunsTheDecodedCommand (offerCommand w s) w s.cmdQ s.turns rfl rfl rfl rfl

/-- The request offered is the one that the next step begins. -/
theorem step_offerRequest (n : Word) (s : State) :
    step (offerRequest n s) = exec (decode (.request n)) { s with reqPhase := .idle, raced := false } :=
  stepRunsTheDecodedRequest (offerRequest n s) .consumer n s.reqQ s.turns (.inl rfl) rfl rfl rfl rfl

/-- The length of a word of the table tells its port: a request has 32 bits and a command has not. -/
theorem tablePort_cases (nbits : Nat) :
    (tablePort nbits = some .cmd ∧ nbits ≠ 32) ∨ (tablePort nbits = some .req ∧ nbits = 32) ∨
      tablePort nbits = none := by
  unfold tablePort
  split
  case h_1 | h_2 => exact .inl ⟨rfl, by decide⟩
  case h_3 => exact .inr (.inl ⟨rfl, rfl⟩)
  case h_4 => exact .inr (.inr rfl)

/-! ### A word of the table -/

/-- What the decoder on bytes accepts, it reads from a word of the port; `f` is the decoder of the port's words. -/
theorem ok_of_toOption_map_eq_some {α : Type} {x : Except DecodeError α} {f : α → Instr} {i : Instr}
    (h : (x.map f).toOption = some i) : ∃ a, x = .ok a ∧ f a = i := by
  cases x with
  | error e => cases h
  | ok a => exact ⟨a, rfl, Option.some.inj h⟩

/-- A word that the table's decoder accepts is what `withFetchWord` offers at its port. -/
theorem withFetchWord_of_decodeTableWord {nbits w : Nat} {i : Instr} (h : decodeTableWord nbits w = some i) (s : State) :
    (nbits ≠ 32 ∧ ∃ v, decode (.command v) = i ∧ s.withFetchWord nbits w = offerCommand v s) ∨
      (nbits = 32 ∧ ∃ n, decode (.request n) = i ∧ s.withFetchWord nbits w = offerRequest n s) := by
  rcases tablePort_cases nbits with ⟨hport, hbits⟩ | ⟨hport, hbits⟩ | hport <;> rw [decodeTableWord, hport] at h
  · change ((commandOfBytes (bytesOfNat 9 (w % 2 ^ nbits))).map fun v => decode (.command v)).toOption = some i at h
    obtain ⟨v, hword, hv⟩ := ok_of_toOption_map_eq_some h
    exact .inl ⟨hbits, v, hv, by simp [State.withFetchWord, offerTableWord, hport, hword]⟩
  · change ((requestOfBytes (bytesOfNat 4 (w % 2 ^ nbits))).map fun n => decode (.request n)).toOption = some i at h
    obtain ⟨n, hword, hn⟩ := ok_of_toOption_map_eq_some h
    exact .inr ⟨hbits, n, hn, by simp [State.withFetchWord, offerTableWord, hport, hword]⟩
  · cases h

/-- Settles O5: the word is offered at its port, and a step runs what is offered there. -/
theorem tableWordIsFetchedAndRun : Obligations.TableWordIsFetchedAndRun := by
  intro s nbits w i h
  rcases withFetchWord_of_decodeTableWord h s with ⟨hbits, v, rfl, hoffer⟩ | ⟨hbits, n, rfl, hoffer⟩
  · rw [hoffer, step_offerCommand, if_neg hbits]
  · rw [hoffer, step_offerRequest, if_pos hbits]

end Sys2Proof.Machine
end

section
/-! A reserved command when it is executed (30_encoding.md R89), and the halves of an output frame (R85). -/

namespace Sys2Proof.Machine

/-! ### Reserved commands -/

/-- Accepted, a reserved command raises its label and does nothing else (60_exceptions.md R231). -/
theorem exec_reservedFx {s : State} (hpending : s.swapPending = false) (code : Byte) :
    exec (.reservedFx code) s = .next (raiseFault (.cmdReserved code) s) :=
  congrArg Host.Outcome.next (whenAccepted_run hpending _)

/-- A label that is no resize race leaves the block running, so raising it concerns the record alone (R231, R233). -/
theorem raiseFault_of_not_isRace {f : FaultRecord} (hf : isRace f = false) (s : State) :
    raiseFault f s = { s with fault := some (s.fault.getD f) } := by
  rw [raiseFault, hf, Bool.or_false]

/-- Settles O20, by whether the record holds a label. -/
theorem reservedCommandIsRecorded : Obligations.ReservedCommandIsRecorded := by
  intro code s hpending
  rw [exec_reservedFx hpending, raiseFault_of_not_isRace rfl]
  refine ⟨fun hnone => ?_, fun f hsome => ?_⟩
  · rw [hnone]
    rfl
  · rw [hsome, Option.getD_some, ← hsome]

/-! ### The output frame -/

/-- The clip bounds what one side can come to before it is centred and shifted (42_volume_pan_mixer.md R157, R158). -/
theorem exists_outputSide_eq (p : Params) (master bias : Half) (sum : Int) :
    ∃ v : Nat, v ≤ 1023 ∧ outputSide p master bias sum = ((v : Int) - 0x200) * 32 := by
  obtain ⟨hlo, hhi⟩ := clamp_range (addBias bias (scaleMaster p master sum)) (lo := outMin) (hi := outMax) (by decide)
  obtain ⟨v, hv⟩ := Int.eq_ofNat_of_zero_le hlo
  refine ⟨v, ?_, ?_⟩
  · rw [hv] at hhi
    exact Int.ofNat_le.mp hhi
  · rw [outputSide, clip, hv]
    rfl

@[simp] theorem packFrame_left (oL oR : Int) : (packFrame oL oR).extractLsb' 0 16 = BitVec.ofInt 16 oL :=
  BitVec.extractLsb'_append_eq_right

@[simp] theorem packFrame_right (oL oR : Int) : (packFrame oL oR).extractLsb' 16 16 = BitVec.ofInt 16 oR :=
  BitVec.extractLsb'_append_eq_left

/-- A sample of this form fits 16 bits, so packing it loses nothing (30_encoding.md R85). -/
theorem toInt_ofInt_sample {v : Nat} (hv : v ≤ 1023) :
    (BitVec.ofInt 16 (((v : Int) - 0x200) * 32)).toInt = ((v : Int) - 0x200) * 32 :=
  BitVec.toInt_ofInt_eq_self (by decide) (by omega) (by omega)

/-- Settles O40: each half is one side of the output, and each side is a sample that fits. -/
theorem frameHalvesAreTenBitSamples : Obligations.FrameHalvesAreTenBitSamples := by
  intro p master bias sumL sumR
  obtain ⟨vL, hvL, hL⟩ := exists_outputSide_eq p master bias sumL
  obtain ⟨vR, hvR, hR⟩ := exists_outputSide_eq p master bias sumR
  refine ⟨vL, vR, hvL, hvR, ?_, ?_⟩
  · rw [outputFrame, packFrame_left, hL, toInt_ofInt_sample hvL]
  · rw [outputFrame, packFrame_right, hR, toInt_ofInt_sample hvR]

end Sys2Proof.Machine
end

section
/-! The rows of the channel engine run alone (40_channel_engine.md R101 to R112): the raw samples and the advances, the
timer with its overflow loop, and the end of data. -/

namespace Sys2Proof.Machine

/-! ### Raw samples -/

theorem memValue_one (m : Memory) (a : Word) : memValue m a 1 = (memGet m a.toNat).zeroExtend 32 := by
  rw [memValue, memBytes, memBytes_zero, Nat.mul_zero, Nat.add_zero, BitVec.ofNat_toNat]

/-- The byte at the higher address is the high half (20_memory.md R52; decision D21). -/
theorem memValue_two (m : Memory) (a : Word) :
    memValue m a 2 = (memGet m (a + 1).toNat ++ memGet m a.toNat : Half).zeroExtend 32 := by
  have hbytes : memBytes m a 2 = (memGet m (a + 1).toNat ++ memGet m a.toNat : Half).toNat := by
    rw [BitVec.toNat_append, ← Nat.shiftLeft_add_eq_or_of_lt (memGet m a.toNat).isLt, Nat.shiftLeft_eq]
    simp only [memBytes]
    omega
  rw [memValue, hbytes, BitVec.ofNat_toNat]

theorem sext8_zeroExtend (b : Byte) : sext8 (b.zeroExtend 32) = b.toInt := by
  simp [sext8]

theorem sext16_zeroExtend (h : Half) : sext16 (h.zeroExtend 32) = h.toInt := by
  simp [sext16]

/-- Settles O22: one read, and its answer sign-extended. -/
theorem rawPcmSamples : Obligations.RawPcmSamples := by
  intro c s p m b0 b1 after
  have hbyte : memValue m p 1 = b0.zeroExtend 32 := memValue_one m p
  have hhalf : memValue m p 2 = (b1 ++ b0 : Half).zeroExtend 32 := memValue_two m p
  constructor
  · rw [← sext8_zeroExtend, ← hbyte]
    rfl
  · rw [← sext16_zeroExtend, ← hhalf]
    rfl

theorem polarity_iff (x : Half) : polarity x = true ↔ 2 ^ 15 ≤ x.toNat := by
  have hx := x.isLt
  rw [polarity, BitVec.getLsbD, Nat.testBit_eq_decide_div_mod_eq, decide_eq_true_eq]
  omega

/-- Settles O23: on its own kind of channel a row latches its sample, on another it does not happen. -/
theorem rawSamplesWithoutARead : Obligations.RawSamplesWithoutARead := by
  intro c s ch g latched duty
  refine ⟨rfl, fun hg => ?pulse, fun hg => ?noise, fun hg => ?silent, fun hg => ?notPulse, fun hg => ?notNoise,
    fun hg => ?notSilent⟩
  case pulse | silent => exact congrArg Host.Outcome.next (whenOwner_run hg _)
  case noise =>
    refine (congrArg Host.Outcome.next (whenOwner_run hg _)).trans ?_
    simp only [rawNoise, polarity_iff]
    rfl
  case notPulse | notNoise | notSilent => exact congrArg Host.Outcome.next (whenOwner_other hg _)

/-! ### Advances -/

/-- The noise step in numbers, on the 15 bits below the polarity (R109). -/
theorem lfsrStep_toNat (tap x : Half) :
    (lfsrStep tap x).toNat =
      if x.toNat % 2 ^ 15 % 2 = 1 then Nat.lor 0x8000 (Nat.xor (x.toNat % 2 ^ 15 / 2) tap.toNat)
      else x.toNat % 2 ^ 15 / 2 := by
  have hout : (x &&& 0x7FFF).getLsbD 0 = true ↔ x.toNat % 2 ^ 15 % 2 = 1 := by
    rw [BitVec.getLsbD, toNat_and_0x7FFF, Nat.testBit_zero, decide_eq_true_eq]
  have hshift : ((x &&& 0x7FFF) >>> 1).toNat = x.toNat % 2 ^ 15 / 2 := by
    rw [BitVec.toNat_ushiftRight, toNat_and_0x7FFF, Nat.shiftRight_eq_div_pow]
  simp only [lfsrStep, hout, apply_ite BitVec.toNat, BitVec.toNat_or, BitVec.toNat_xor, hshift]
  rfl

/-- Settles O24: the pointer, the noise step on the channel that owns it, and nothing. -/
theorem advanceOfPcmNoiseAndSilence : Obligations.AdvanceOfPcmNoiseAndSilence := by
  intro c s ch g x
  refine ⟨rfl, rfl, fun hg => ?noise, ?silent, fun hg => ?notNoise, fun hg => ?notPulse⟩
  case noise => exact ⟨_, congrArg Host.Outcome.next (whenOwner_run hg _), lfsrStep_toNat _ _⟩
  case silent => exact congrArg Host.Outcome.next (ite_self s)
  case notNoise | notPulse => exact congrArg Host.Outcome.next (whenOwner_other hg _)

/-- Settles O25: the row runs on its owner, and the default list holds the channels 8 to 13. -/
theorem advanceOfPulse : Obligations.AdvanceOfPulse := by
  constructor
  · intro c s hg
    exact ⟨_, congrArg Host.Outcome.next (whenOwner_run hg _), BitVec.toNat_add _ 1⟩
  · intro c s hlist hlow hhigh
    rw [genOf_eq_pulse_iff, hlist, mem_default_pulseCh_iff]
    exact ⟨hlow, hhigh⟩

/-! ### End of data -/

theorem endAddr_eq_ofNat (ch : Channel) :
    endAddr ch = BitVec.ofNat 32 (ch.sad.toNat + 4 * (ch.pnt.toNat + ch.len.toNat)) := by
  simp [endAddr, BitVec.ofNat_add, BitVec.ofNat_mul]

theorem loopStart_eq_ofNat (ch : Channel) : loopStart ch = BitVec.ofNat 32 (ch.sad.toNat + 4 * ch.pnt.toNat) := by
  simp [loopStart, BitVec.ofNat_add, BitVec.ofNat_mul]

/-- The loop arm in one update: ADPCM restores its snapshot too (R112, 41_adpcm.md R141). -/
theorem wrapToLoop_eq (fmt : Format) (c : Chan) (s : State) :
    let ch := getChan s c
    wrapToLoop fmt c s =
      if fmt = .adpcm then
        setChan s c { ch with ptr := loopStart ch, acc := ch.snapAcc, idx := ch.snapIdx, nsel := false }
      else setChan s c { ch with ptr := loopStart ch } := by
  cases fmt with
  | pcm8 | pcm16 | psg => rfl
  | adpcm => simp [wrapToLoop, restoreSnap]

section
variable {fmt : Format} {c : Chan} {s : State}

theorem atEnd_loop (h : repeatOf s.params (getChan s c).cnt = .loop) : atEnd fmt c s = wrapToLoop fmt c s := by
  rw [atEnd, h]

theorem atEnd_oneshot (h : repeatOf s.params (getChan s c).cnt = .oneshot) : atEnd fmt c s = stopChan c s := by
  rw [atEnd, h]

/-- The reserved mode does what manual does (R71, R112). -/
theorem atEnd_manual_or_reserved
    (h : repeatOf s.params (getChan s c).cnt = .manual ∨ repeatOf s.params (getChan s c).cnt = .reserved) :
    atEnd fmt c s = stopIfManualStops c s := by
  rcases h with h | h <;> rw [atEnd, h]

end

theorem exec_endCheck (c : Chan) (s : State) :
    exec (.endCheck c) s = .next (endOfData (formatOf s.params (getChan s c).cnt) c s) := rfl

/-- Settles O30: whether the check finds the end, and then the loop mode. -/
theorem endOfDataByRepeatMode : Obligations.EndOfDataByRepeatMode := by
  intro c s ch fmt rep endA start wrapped stopped manual
  have hend : endAddr ch = endA := endAddr_eq_ofNat ch
  have hwrap : wrapToLoop fmt c s = wrapped := by
    rw [wrapToLoop_eq, loopStart_eq_ofNat]
  have hat : fmt ≠ .psg → ch.ptr = endA → exec (.endCheck c) s = .next (atEnd fmt c s) := by
    intro hfmt hptr
    rcases endOfData_cases fmt c s with ⟨hno, -⟩ | ⟨-, -, he⟩
    · exact absurd hno (not_or.mpr ⟨hfmt, not_not.mpr (hptr.trans hend.symm)⟩)
    · rw [exec_endCheck, he]
  refine ⟨?away, ?loop, ?oneshot, ?manual, congrArg _ hwrap, rfl, rfl, rfl⟩
  case away =>
    intro hno
    rcases endOfData_cases fmt c s with ⟨-, he⟩ | ⟨hfmt, hptr, -⟩
    · rw [exec_endCheck, he]
    · exact absurd hno (not_or.mpr ⟨hfmt, not_not.mpr (hptr.trans hend)⟩)
  case loop => exact fun hfmt hptr hrep => (hat hfmt hptr).trans (congrArg _ ((atEnd_loop hrep).trans hwrap))
  case oneshot => exact fun hfmt hptr hrep => (hat hfmt hptr).trans (congrArg _ (atEnd_oneshot hrep))
  case manual => exact fun hfmt hptr hrep => (hat hfmt hptr).trans (congrArg _ (atEnd_manual_or_reserved hrep))

/-! ### Timer -/

theorem timerAdd_fst (a b : Half) : (timerAdd a b).1 = a + b := rfl

theorem timerAdd_snd (a b : Half) : (timerAdd a b).2 = true ↔ 2 ^ 16 ≤ a.toNat + b.toNat := decide_eq_true_iff

theorem toNat_tickInc : tickInc.toNat = 512 := rfl

section
variable {fmt : Format} {c : Chan} {s : State}

/-- Without a carry out of the increment the timer is the increment (R104). -/
theorem timerStep_no_carry (h : (getChan s c).tcnt.toNat + 512 < 2 ^ 16) :
    timerStep fmt c s = setChan s c { getChan s c with tcnt := (getChan s c).tcnt + 512 } := by
  rcases timerStep_cases fmt c s with ⟨-, he⟩ | ⟨hcarry, -⟩
  · exact he
  · rw [timerAdd_snd, toNat_tickInc] at hcarry
    omega

/-- With one the overflow loop takes over (R105). -/
theorem timerStep_carry (h : 2 ^ 16 ≤ (getChan s c).tcnt.toNat + 512) :
    timerStep fmt c s =
      overflowLoop fmt c 512 (setChan s c { getChan s c with tcnt := (getChan s c).tcnt + 512 }) := by
  rcases timerStep_cases fmt c s with ⟨hcarry, -⟩ | ⟨-, he⟩
  · rw [← Bool.not_eq_true, timerAdd_snd, toNat_tickInc] at hcarry
    exact absurd h hcarry
  · exact he

/-- One pass of the overflow loop, with the counter reloaded to `t` (R105). -/
def overflowPass (fmt : Format) (c : Chan) (t : Half) (s : State) : State :=
  endOfData fmt c (advance fmt c (setChan s c { getChan s c with tcnt := t }))

/-- The loop goes on while there is a carry out of the reload and the end of data has not cleared the enable bit
(R105; D14, D15). -/
theorem overflowLoop_pass (fmt : Format) (c : Chan) (n : Nat) (s : State) :
    let ch := getChan s c
    let v := overflowPass fmt c (ch.tcnt + ch.tmr) s
    overflowLoop fmt c (n + 1) s =
      if 2 ^ 16 ≤ ch.tcnt.toNat + ch.tmr.toNat ∧ cntEnabled (getChan v c).cnt = true then overflowLoop fmt c n v
      else v :=
  (overflowLoop_succ fmt c n s).trans (if_congr (by rw [Bool.and_eq_true, timerAdd_snd]; rfl) rfl rfl)

/-- A reload that carries leaves a lower counter, so the loop needs no more passes than the counter is high, plus one
(derived in R105). -/
theorem overflowLoop_enough {n m : Nat} (hlt : (getChan s c).tcnt.toNat < m) (hle : m ≤ n) :
    overflowLoop fmt c n s = overflowLoop fmt c m s := by
  induction m generalizing n s with
  | zero => exact absurd hlt (Nat.not_lt_zero _)
  | succ m ih =>
    obtain ⟨n, rfl⟩ : ∃ k, n = k + 1 := ⟨n - 1, by omega⟩
    rw [overflowLoop_pass, overflowLoop_pass]
    refine ite_congr rfl (fun hmore => ih ?_ (by omega)) fun _ => rfl
    have htmr := (getChan s c).tmr.isLt
    rw [overflowPass, overflowPass_tcnt, BitVec.toNat_add]
    omega

end

/-- Settles O28: a counter of at most 511 is below 512 passes. -/
theorem overflowLoopNeedsAtMost512Passes : Obligations.OverflowLoopNeedsAtMost512Passes :=
  fun _ _ _ _ hcounter hpasses => overflowLoop_enough (Nat.lt_succ_of_le hcounter) hpasses

/-- Settles O26: the increment is all there is. -/
theorem timerWithoutOverflow : Obligations.TimerWithoutOverflow :=
  fun _ _ h => congrArg Host.Outcome.next (timerStep_no_carry h)

/-! ### TIMER with an overflow -/

/-- The row of the channel's advance is the advance; with a generator, the row of that generator (log entry 15). -/
theorem exec_advanceRow (fmt : Format) (c : Chan) (s : State) :
    exec (advanceRow s.params fmt c) s = .next (advance fmt c s) := by
  cases fmt with
  | pcm8 | pcm16 | adpcm => rfl
  | psg =>
    cases hg : genOf s.params c <;> simp only [advanceRow, advance, hg]
    all_goals exact congrArg Host.Outcome.next (whenOwner_run hg _)

theorem captureSnap_cnt (c : Chan) (s : State) : (getChan (captureSnap c s) c).cnt = (getChan s c).cnt := by
  unfold captureSnap
  dsimp only
  split <;> simp

/-- An advance leaves the control register alone. -/
theorem advance_cnt (fmt : Format) (c : Chan) (s : State) : (getChan (advance fmt c s) c).cnt = (getChan s c).cnt := by
  cases fmt with
  | pcm8 | pcm16 => simp [advance, advancePointer]
  | adpcm => simp [advance, advanceAdpcm, decodeStep, captureSnap_cnt]
  | psg =>
    simp only [advance]
    split <;> simp [advancePulse, advanceNoise, advanceNone]

/-- A pass that leaves the channel enabled has left the whole control register alone: clearing that bit is all it can do
to it (R112). -/
theorem overflowPass_cnt {fmt : Format} {c : Chan} {t : Half} {s : State}
    (hon : (getChan (overflowPass fmt c t s) c).cnt.getLsbD 31 = true) :
    (getChan (overflowPass fmt c t s) c).cnt = (getChan s c).cnt := by
  rcases (overflowPass_onlyChannel fmt c t s).bank.cnt with hcnt | hcnt
  · exact hcnt
  · rw [overflowPass, hcnt] at hon
    simp at hon

theorem exec_timer (c : Chan) (s : State) :
    exec (.timer c) s = .next (timerStep (formatOf s.params (getChan s c).cnt) c s) := rfl

theorem toNat_add_512_of_carry {x : Half} (h : 2 ^ 16 ≤ x.toNat + 512) : (x + 512).toNat = x.toNat + 512 - 2 ^ 16 := by
  rw [BitVec.toNat_add, show (512 : Half).toNat = 512 from rfl]
  omega

theorem reload_eq_ofNat {x : Half} (h : 2 ^ 16 ≤ x.toNat + 512) (y : Half) :
    x + 512 + y = BitVec.ofNat 16 (x.toNat + 512 - 2 ^ 16 + y.toNat) := by
  rw [← toNat_add_512_of_carry h, BitVec.ofNat_add, BitVec.ofNat_toNat, BitVec.ofNat_toNat, BitVec.setWidth_eq,
    BitVec.setWidth_eq]

/-- `TIMER` once the increment has carried: one pass, with the counter reloaded from where the increment wrapped it to,
and what is left of the loop (R105). -/
theorem timerStep_overflow (fmt : Format) (c : Chan) (s : State) (h : 2 ^ 16 ≤ (getChan s c).tcnt.toNat + 512) :
    let sum := (getChan s c).tcnt.toNat + 512 - 2 ^ 16 + (getChan s c).tmr.toNat
    let v := overflowPass fmt c (BitVec.ofNat 16 sum) s
    timerStep fmt c s =
      if 2 ^ 16 ≤ sum ∧ cntEnabled (getChan v c).cnt = true then overflowLoop fmt c 511 v else v := by
  have hpass (t x : Half) :
      overflowPass fmt c t (setChan s c { getChan s c with tcnt := x }) = overflowPass fmt c t s := by
    simp only [overflowPass, getChan_setChan_same, setChan_setChan]
  rw [timerStep_carry h, overflowLoop_pass, getChan_setChan_same, reload_eq_ofNat h, hpass, toNat_add_512_of_carry h]

/-- From 512 below a counter, a `TIMER` wraps to it and runs the whole loop. -/
theorem timerStep_sub_512 {fmt : Format} {c : Chan} {v : State} (h : (getChan v c).tcnt.toNat < 512) :
    timerStep fmt c (setChan v c { getChan v c with tcnt := (getChan v c).tcnt - 512 }) = overflowLoop fmt c 512 v := by
  have hcarry : 2 ^ 16 ≤ ((getChan v c).tcnt - 512).toNat + 512 := by
    rw [BitVec.toNat_sub, show (512 : Half).toNat = 512 from rfl]
    omega
  rw [timerStep_carry (by rwa [getChan_setChan_same]), getChan_setChan_same, setChan_setChan]
  simp only [BitVec.sub_add_cancel]
  exact congrArg _ (setChan_getChan v c)

theorem overflowPass_params (fmt : Format) (c : Chan) (t : Half) (s : State) :
    (overflowPass fmt c t s).params = s.params :=
  (overflowPass_onlyChannel fmt c t s).rest.params

/-- Settles O27: one pass follows the increment, and the loop ends there or goes on. What is left of it is all of the loop
that a `TIMER` wrapping the counter to the one in `v` would run, as the carry of the reload has lowered the counter. -/
theorem timerOverflowLoop : Obligations.TimerOverflowLoop := by
  intro c s ch sum hcarry
  let fmt := formatOf s.params ch.cnt
  let v := overflowPass fmt c (BitVec.ofNat 16 sum) s
  have hrun : timerStep fmt c s =
      if 2 ^ 16 ≤ sum ∧ cntEnabled (getChan v c).cnt = true then overflowLoop fmt c 511 v else v :=
    timerStep_overflow fmt c s hcarry
  have hcounter : (getChan v c).tcnt.toNat = sum % 2 ^ 16 :=
    (congrArg BitVec.toNat (overflowPass_tcnt fmt c (BitVec.ofNat 16 sum) s)).trans (BitVec.toNat_ofNat sum 16)
  refine ⟨_, v, exec_advanceRow fmt c (setChan s c { ch with tcnt := BitVec.ofNat 16 sum }), ?check, hcounter, ?ends,
    ?goesOn⟩
  case check =>
    rw [exec_endCheck, (advance_frame ..).only.rest.params, advance_cnt, getChan_setChan_same]
    rfl
  case ends =>
    intro hend
    rw [exec_timer, hrun, if_neg]
    rintro ⟨hmore, hon⟩
    rcases hend with hlt | hoff
    · exact absurd hmore (Nat.not_le.mpr hlt)
    · exact absurd (hoff.symm.trans hon) Bool.false_ne_true
  case goesOn =>
    intro hmore hon
    have hlow : (getChan v c).tcnt.toNat < 511 := by
      have htcnt : ch.tcnt.toNat < 2 ^ 16 := ch.tcnt.isLt
      have htmr : ch.tmr.toNat < 2 ^ 16 := ch.tmr.isLt
      omega
    have hfmt : formatOf v.params (getChan v c).cnt = fmt := by
      rw [overflowPass_cnt hon, overflowPass_params]
    have hrest : exec (.timer c) (setChan v c { getChan v c with tcnt := (getChan v c).tcnt - 512 }) =
        .next (overflowLoop fmt c 512 v) := by
      rw [exec_timer, setChan_params, getChan_setChan_same, hfmt, timerStep_sub_512 (hlow.trans (by decide))]
    rw [hrest, overflowLoop_enough hlow (n := 512) (by decide), exec_timer, hrun, if_pos ⟨hmore, hon⟩]

end Sys2Proof.Machine
end

section
/-! Updates that the work of a channel neither sees nor disturbs: the latches, and the registers of another channel. What
runs beside the work commutes with it, so a `FORMAT` row is its raw sample and then `TIMER`, a disabled channel takes no
part in a TICK, and a TICK is its named sub-steps one after another (40_channel_engine.md R100, R106). -/

namespace Sys2Proof.Machine

/-! ### Updates that a channel's work does not see -/

/-- The update `f` leaves channel `c`, the parameters and the read port as they are, and commutes with what the work of
channel `c` does to them. -/
structure Unseen (c : Chan) (f : State → State) : Prop where
  chan : ∀ s, getChan (f s) c = getChan s c
  params : ∀ s, (f s).params = s.params
  setChan : ∀ s ch, setChan (f s) c ch = f (setChan s c ch)
  readMem : ∀ a n s, readMem a n (f s) = ((readMem a n s).1, f (readMem a n s).2)

theorem unseen_setDp (c : Chan) (d : Datapath) : Unseen c (setDp · d) :=
  ⟨fun _ => rfl, fun _ => rfl, fun _ _ => rfl, fun _ _ _ => rfl⟩

@[simp] theorem setDp_setDp (s : State) (d d' : Datapath) : setDp (setDp s d) d' = setDp s d' := rfl

@[simp] theorem setDp_self (s : State) : setDp s s.dp = s := rfl

theorem setChan_comm {c d : Chan} (h : d ≠ c) (ch ch' : Channel) (s : State) :
    setChan (setChan s c ch) d ch' = setChan (setChan s d ch') c ch := by
  have hval : c.val ≠ d.val := fun e => h (Fin.ext e.symm)
  simp only [setChan]
  rw [Vector.set_comm _ _ hval]

theorem unseen_setChan {c d : Chan} (h : d ≠ c) (ch : Channel) : Unseen d (setChan · c ch) :=
  ⟨fun s => getChan_setChan_ne s c d ch h, fun _ => rfl, fun s ch' => setChan_comm h ch ch' s, fun _ _ _ => rfl⟩

section
variable {c : Chan} {f : State → State} (h : Unseen c f)
include h

theorem captureSnap_unseen (s : State) : captureSnap c (f s) = f (captureSnap c s) := by
  simp only [captureSnap, h.chan, h.setChan, apply_ite f]

theorem decodeStep_unseen (n : BitVec 4) (s : State) : decodeStep n c (f s) = f (decodeStep n c s) := by
  simp only [decodeStep, h.chan, h.params, h.setChan]

theorem restoreSnap_unseen (s : State) : restoreSnap c (f s) = f (restoreSnap c s) := by
  simp only [restoreSnap, h.chan, h.setChan]

theorem advanceAdpcm_unseen (s : State) : advanceAdpcm c (f s) = f (advanceAdpcm c s) := by
  simp only [advanceAdpcm, captureSnap_unseen h, h.chan, h.params, h.readMem, decodeStep_unseen h]

theorem rawSample_unseen (fmt : Format) (s : State) :
    rawSample fmt c (f s) = ((rawSample fmt c s).1, f (rawSample fmt c s).2) := by
  cases fmt with
  | pcm8 => simp only [rawSample, rawPcm8, h.chan, h.readMem]
  | pcm16 => simp only [rawSample, rawPcm16, h.chan, h.readMem]
  | adpcm => simp only [rawSample, rawAdpcm, h.chan]
  | psg =>
    cases hg : genOf s.params c <;>
      simp only [rawSample, rawPulse, rawNoise, rawNone, h.chan, h.params, hg]

theorem advance_unseen (fmt : Format) (s : State) : advance fmt c (f s) = f (advance fmt c s) := by
  cases fmt with
  | pcm8 | pcm16 => simp only [advance, advancePointer, h.chan, h.setChan]
  | adpcm => exact advanceAdpcm_unseen h s
  | psg =>
    cases hg : genOf s.params c <;>
      simp only [advance, advancePulse, advanceNoise, advanceNone, setDuty_eq, setLfsr_eq, h.chan, h.params, h.setChan,
        hg]

theorem stopChan_unseen (s : State) : stopChan c (f s) = f (stopChan c s) := by
  simp only [stopChan, h.chan, h.setChan]

theorem stopIfManualStops_unseen (s : State) : stopIfManualStops c (f s) = f (stopIfManualStops c s) := by
  simp only [stopIfManualStops, h.params, stopChan_unseen h, apply_ite f]

theorem wrapToLoop_unseen (fmt : Format) (s : State) : wrapToLoop fmt c (f s) = f (wrapToLoop fmt c s) := by
  cases fmt <;> simp only [wrapToLoop, h.chan, h.setChan, restoreSnap_unseen h]

theorem atEnd_unseen (fmt : Format) (s : State) : atEnd fmt c (f s) = f (atEnd fmt c s) := by
  cases hrep : repeatOf s.params (getChan s c).cnt <;>
    simp only [atEnd, h.chan, h.params, hrep, stopIfManualStops_unseen h, wrapToLoop_unseen h, stopChan_unseen h]

theorem endOfData_unseen (fmt : Format) (s : State) : endOfData fmt c (f s) = f (endOfData fmt c s) := by
  cases fmt <;> simp only [endOfData, h.chan, atEnd_unseen h, apply_ite f]

theorem overflowLoop_unseen (fmt : Format) (passes : Nat) (s : State) :
    overflowLoop fmt c passes (f s) = f (overflowLoop fmt c passes s) := by
  induction passes generalizing s with
  | zero => rfl
  | succ n ih =>
    simp only [overflowLoop_succ, h.chan, h.setChan, advance_unseen h, endOfData_unseen h, ih, apply_ite f]

theorem timerStep_unseen (fmt : Format) (s : State) : timerStep fmt c (f s) = f (timerStep fmt c s) := by
  simp only [timerStep, h.chan, h.setChan, overflowLoop_unseen h, apply_ite f]

theorem channelWork_unseen (fmt : Format) (s : State) :
    channelWork fmt c (f s) = ((channelWork fmt c s).1, f (channelWork fmt c s).2) := by
  simp only [channelWork, rawSample_unseen h, timerStep_unseen h]

/-- A channel's part of a TICK commutes with an update that its work does not see. -/
theorem tickChan_unseen (t : TickState) :
    tickChan { t with st := f t.st } c = { tickChan t c with st := f (tickChan t c).st } := by
  cases hon : cntEnabled (getChan t.st c).cnt <;>
    simp [tickChan, h.chan, h.params, channelWork_unseen h, hon]

end

/-! ### A `FORMAT` row -/

/-- The raw sample's row latches it; on a channel with a generator, the row of that generator (log entries 14, 15). -/
theorem exec_rawRow (fmt : Format) (c : Chan) (s : State) :
    exec (rawRow s.params fmt c) s = .next (latchRaw (rawSample fmt c s)) := by
  cases fmt with
  | pcm8 | pcm16 | adpcm => rfl
  | psg =>
    cases hg : genOf s.params c <;> simp only [rawRow, rawSample, hg]
    all_goals exact congrArg Host.Outcome.next (whenOwner_run hg _)

theorem rawSample_chan (fmt : Format) (c d : Chan) (s : State) : getChan (rawSample fmt c s).2 d = getChan s d := by
  cases fmt with
  | pcm8 | pcm16 | adpcm => rfl
  | psg =>
    unfold rawSample
    dsimp only
    split <;> rfl

theorem channelWork_eq (fmt : Format) (c : Chan) (s : State) :
    channelWork fmt c s = ((rawSample fmt c s).1, timerStep fmt c (rawSample fmt c s).2) := by
  rw [channelWork]

/-- Settles O31: the timer does not see the latch, so latching the raw sample before it or after it is the same. -/
theorem formatRowIsRawThenTimer : Obligations.FormatRowIsRawThenTimer := by
  intro c s fmt
  have hfmt : formatOf (latchRaw (rawSample fmt c s)).params (getChan (latchRaw (rawSample fmt c s)) c).cnt = fmt := by
    rw [latchRaw, setDp_params, getChan_setDp, rawSample_chan, (rawSample_frame fmt c s).only.rest.params]
  have hlatch : timerStep fmt c (latchRaw (rawSample fmt c s)) = latchRaw (channelWork fmt c s) := by
    rw [channelWork_eq, latchRaw, latchRaw, timerStep_unseen (unseen_setDp c _), (timerStep_frame fmt c _).dp]
  exact ⟨_, _, exec_rawRow fmt c s, (exec_timer c _).trans (by rw [hfmt]), by rw [exec_formatRow, hlatch]⟩

/-! ### The push of a TICK -/

/-- A push neither reads nor writes the channels and the latches. -/
theorem pushFrame_chans_dp (f : Frame) (s : State) (chans : Vector Channel 16) (d : Datapath) :
    pushFrame f { s with chans := chans, dp := d } = { pushFrame f s with chans := chans, dp := d } := by
  have hswap (u : State) :
      requestSwap { u with chans := chans, dp := d } = { requestSwap u with chans := chans, dp := d } := by
    simp only [requestSwap]
    split <;> rfl
  simp only [pushFrame, writeFrame_eq]
  split
  · rfl
  · split
    · exact hswap { s with buf0 := _, buf1 := _, wcur := s.wcur + 1 }
    · rfl

theorem pushFrame_setChan (f : Frame) (s : State) (c : Chan) (ch : Channel) :
    pushFrame f (setChan s c ch) = setChan (pushFrame f s) c ch := by
  have hpush := pushFrame_sameButBuffers f s
  refine (pushFrame_chans_dp f s (s.chans.set c ch) s.dp).trans ?_
  rw [setChan, hpush.chans, ← hpush.dp]

theorem pushFrame_setDp (f : Frame) (s : State) (d : Datapath) :
    pushFrame f (setDp s d) = setDp (pushFrame f s) d := by
  refine (pushFrame_chans_dp f s s.chans d).trans ?_
  rw [setDp, ← (pushFrame_sameButBuffers f s).chans]

/-! ### Disabled channels -/

theorem tickChan_disabled {t : TickState} {c : Chan} (hoff : cntEnabled (getChan t.st c).cnt = false) :
    tickChan t c = t := by
  rcases tickChan_cases t c with ⟨-, he⟩ | ⟨hon, -⟩
  · exact he
  · exact absurd (hoff.symm.trans hon) Bool.false_ne_true

/-- The registers of a disabled channel are carried through the channels of a TICK, whatever they are. -/
theorem foldl_tickChan_setChan {c : Chan} {ch : Channel} (hch : cntEnabled ch.cnt = false) (l : List Chan)
    {t : TickState} (hoff : cntEnabled (getChan t.st c).cnt = false) :
    l.foldl tickChan { t with st := setChan t.st c ch } =
      { l.foldl tickChan t with st := setChan (l.foldl tickChan t).st c ch } := by
  induction l generalizing t with
  | nil => rfl
  | cons d l ih =>
    have hkept : getChan (tickChan t d).st c = getChan t.st c := (tickChan_frame (.refl t.st) d).disabled c hoff
    have hstep : tickChan { t with st := setChan t.st c ch } d =
        { tickChan t d with st := setChan (tickChan t d).st c ch } := by
      by_cases hd : d = c
      · subst hd
        rw [tickChan_disabled hoff, tickChan_disabled (by rwa [getChan_setChan_same])]
      · exact tickChan_unseen (unseen_setChan hd ch) t
    rw [List.foldl_cons, List.foldl_cons, hstep, ih (hkept ▸ hoff)]

theorem runTick_setChan {c : Chan} {ch : Channel} {s : State} (hoff : cntEnabled (getChan s c).cnt = false)
    (hch : cntEnabled ch.cnt = false) : runTick (setChan s c ch) = setChan (runTick s) c ch := by
  have hchans : tickChans (setChan s c ch) = { tickChans s with st := setChan (tickChans s).st c ch } :=
    foldl_tickChan_setChan hch allChans (t := { st := s, sumL := 0, sumR := 0 }) hoff
  rw [runTick, hchans]
  exact pushFrame_setChan _ _ c ch

/-- Settles O42: the channels of a TICK carry the disabled one along, and so does the push. -/
theorem disabledChannelTakesNoPart : Obligations.DisabledChannelTakesNoPart := by
  intro c ch s hpending hoff hch
  have hkept : getChan (runTick s) c = getChan s c := by
    obtain ⟨f, hrun⟩ := runTick_eq_pushFrame s
    rw [hrun, getChan, (pushFrame_sameButBuffers f _).chans]
    exact (tickChans_frame s).disabled c hoff
  exact ⟨runTick s, exec_tick hpending, hkept,
    (exec_tick (s := setChan s c ch) hpending).trans (congrArg _ (runTick_setChan hoff hch))⟩

/-- With every channel disabled nothing is added to the sums. -/
theorem foldl_tickChan_disabled (l : List Chan) {t : TickState}
    (hoff : ∀ c, cntEnabled (getChan t.st c).cnt = false) : l.foldl tickChan t = t := by
  induction l with
  | nil => rfl
  | cons c l ih => rw [List.foldl_cons, tickChan_disabled (hoff c), ih]

/-- A sum of nothing leaves the bias alone, which the clip does not reach (42_volume_pan_mixer.md R155 to R158). -/
theorem outputSide_zero (p : Params) (master bias : Half) :
    outputSide p master bias 0 = ((biasValue bias : Int) - 0x200) * 32 := by
  have hmaster : scaleMaster p master 0 = 0 := by simp [scaleMaster]
  have hbias : addBias bias 0 = biasValue bias := by simp [addBias]
  have hlt : biasValue bias < 1024 := (bias.extractLsb' 0 10).isLt
  have hclip : clip (biasValue bias) = biasValue bias := by
    rw [clip, clamp_eq _ _ _ (by decide), outMin, outMax]
    omega
  rw [outputSide, hmaster, hbias, hclip]
  rfl

/-- Settles O41: the channels leave the state and the sums of zero, and each half of the frame is the bias level. -/
theorem silentTickPushesTheBiasLevel : Obligations.SilentTickPushesTheBiasLevel := by
  intro s hpending hoff
  have hchans : tickChans s = { st := s, sumL := 0, sumR := 0 } := foldl_tickChan_disabled allChans hoff
  have hlt : biasValue s.bias < 1024 := (s.bias.extractLsb' 0 10).isLt
  have hsample := toInt_ofInt_sample (Nat.le_of_lt_succ hlt)
  refine ⟨outputFrame s.params s.master s.bias 0 0, runTick s, ?left, ?right, ?push, exec_tick hpending⟩
  case left => rw [outputFrame, packFrame_left, outputSide_zero, hsample]; rfl
  case right => rw [outputFrame, packFrame_right, outputSide_zero, hsample]; rfl
  case push => rw [runTick, hchans]; rfl

/-! ### The sub-steps of a TICK -/

/-- A run of sub-steps has come as far as the TICK `t`: the same state up to the latches, which hold the sums. -/
def Latched (r : Result) (t : TickState) : Prop :=
  ∃ d : Datapath, r = .next (setDp t.st d) ∧ d.sumL = t.sumL ∧ d.sumR = t.sumR

/-- Run beside latches `d`, a `FORMAT` row is the channel's work, and only the raw sample is new in them. -/
theorem exec_formatRow_setDp (fmt : Format) (c : Chan) (s : State) (d : Datapath) :
    exec (formatRow fmt c) (setDp s d) =
      .next (setDp (channelWork fmt c s).2 { d with raw := (channelWork fmt c s).1 }) := by
  rw [exec_formatRow, channelWork_unseen (unseen_setDp c d)]
  simp only [latchRaw, setDp_setDp, setDp_dp]

/-- `VOLUME`, `PAN` and the sums read the registers and the latches alone. -/
theorem exec_volume_pan_setDp (c : Chan) (s : State) (d : Datapath) :
    let cnt := (getChan s c).cnt
    let s11 := scaleVolume s.params cnt d.raw
    thenRun (thenRun (.next (setDp s d)) (.volume c)) (.pan c) =
      .next (setDp s { d with s11 := s11, l := panLeft s.params cnt s11, r := panRight s.params cnt s11 }) := rfl

/-- One channel's sub-steps are its part of a TICK. The volume and the pan of a TICK take the parameters from before the
channel's work, which leaves them as they are. -/
theorem subStepsOfChan_latched {r : Result} {t : TickState} (h : Latched r t) (c : Chan) :
    Latched (subStepsOfChan r c) (tickChan t c) := by
  obtain ⟨d, rfl, hL, hR⟩ := h
  cases hon : cntEnabled (getChan t.st c).cnt with
  | false =>
    rw [tickChan_disabled hon]
    exact ⟨d, by simp [subStepsOfChan, hon], hL, hR⟩
  | true =>
    have hparams := (channelWork_frame (formatOf t.st.params (getChan t.st c).cnt) c t.st).only.rest.params
    have hops := exec_formatRow_setDp (formatOf t.st.params (getChan t.st c).cnt) c t.st d
    simp only [subStepsOfChan, runOps, List.foldl_cons, List.foldl_nil, getChan_setDp, setDp_params, hon, if_true,
      tickChan]
    generalize channelWork (formatOf t.st.params (getChan t.st c).cnt) c t.st = w at hparams hops ⊢
    rw [thenRun, hops, exec_volume_pan_setDp, hparams, ← hL, ← hR]
    exact ⟨_, rfl, rfl, rfl⟩

theorem foldl_subStepsOfChan_latched (l : List Chan) {r : Result} {t : TickState} (h : Latched r t) :
    Latched (l.foldl subStepsOfChan r) (l.foldl tickChan t) := by
  induction l generalizing r t with
  | nil => exact h
  | cons c l ih => exact ih (subStepsOfChan_latched h c)

theorem subSteps_latched (s : State) :
    Latched (allChans.foldl subStepsOfChan (.next (setDp s { s.dp with sumL := 0, sumR := 0 }))) (tickChans s) :=
  foldl_subStepsOfChan_latched allChans ⟨_, rfl, rfl, rfl⟩

/-- The latches after the five steps of the output stage (R155 to R159). -/
def outputLatches (s : State) (d : Datapath) : Datapath :=
  let mL := scaleMaster s.params s.master d.sumL
  let mR := scaleMaster s.params s.master d.sumR
  let bL := addBias s.bias mL
  let bR := addBias s.bias mR
  { d with
    mL := mL
    mR := mR
    bL := bL
    bR := bR
    vL := clip bL
    vR := clip bR
    oL := recentre (clip bL)
    oR := recentre (clip bR)
    frame := packFrame (recentre (clip bL)) (recentre (clip bR)) }

theorem exec_mixMaster (s : State) : exec .mixMaster s = .next (setDp s
    { s.dp with mL := scaleMaster s.params s.master s.dp.sumL, mR := scaleMaster s.params s.master s.dp.sumR }) := rfl

theorem exec_mixBias (s : State) :
    exec .mixBias s = .next (setDp s { s.dp with bL := addBias s.bias s.dp.mL, bR := addBias s.bias s.dp.mR }) := rfl

theorem exec_mixClip (s : State) :
    exec .mixClip s = .next (setDp s { s.dp with vL := clip s.dp.bL, vR := clip s.dp.bR }) := rfl

theorem exec_mixRecentre (s : State) :
    exec .mixRecentre s = .next (setDp s { s.dp with oL := recentre s.dp.vL, oR := recentre s.dp.vR }) := rfl

theorem exec_mixPack (s : State) :
    exec .mixPack s = .next (setDp s { s.dp with frame := packFrame s.dp.oL s.dp.oR }) := rfl

theorem exec_push (f : Frame) (s : State) : exec (.push f) s = .next (pushFrame f s) := rfl

theorem outputStage_setDp (s : State) (d : Datapath) :
    thenRun (thenRun (thenRun (thenRun (thenRun (.next (setDp s d)) .mixMaster) .mixBias) .mixClip) .mixRecentre)
      .mixPack = .next (setDp s (outputLatches s d)) := by
  simp only [thenRun, exec_mixMaster, exec_mixBias, exec_mixClip, exec_mixRecentre, exec_mixPack, setDp_setDp,
    setDp_dp, setDp_params, setDp_master, setDp_bias, outputLatches]

/-- A TICK pushes the frame that the five steps make of its sums. -/
theorem runTick_eq_push_outputLatches {s : State} {d : Datapath} (hL : d.sumL = (tickChans s).sumL)
    (hR : d.sumR = (tickChans s).sumR) :
    runTick s = pushFrame (outputLatches (tickChans s).st d).frame (tickChans s).st := by
  rw [outputLatches, hL, hR, runTick, outputFrame, outputSide, outputSide]

/-- Settles O44: the channels, then the output stage, then a push that does not see the latches. -/
theorem tickIsItsSubSteps : Obligations.TickIsItsSubSteps := by
  intro s hpending
  obtain ⟨d, hchans, hL, hR⟩ := subSteps_latched s
  have hrun := runTick_eq_push_outputLatches hL hR
  have hdp : (runTick s).dp = s.dp := by
    rw [hrun, (pushFrame_sameButBuffers _ _).dp, (tickChans_frame s).dp]
  refine ⟨setDp (runTick s) (outputLatches (tickChans s).st d), ?steps, ?tick⟩
  case steps =>
    unfold tickBySubSteps
    rw [hchans, outputStage_setDp]
    simp only [setDp_dp, exec_push, pushFrame_setDp, hrun]
  case tick => rw [exec_tick hpending, setDp_setDp, ← hdp, setDp_self]

end Sys2Proof.Machine
end

section
/-! The ADPCM decoder and its loop-state cache (41_adpcm.md R131 to R142): the snapshot, the step table, the codes
and the advance that fetches them. -/

namespace Sys2Proof.Machine

/-! ### The snapshot -/

theorem exec_snapCapture (c : Chan) (s : State) : exec (.snapCapture c) s = .next (captureSnap c s) := rfl

/-- The test of the capture in numbers: the loop start wraps with the address space (30_encoding.md R74; D9). -/
theorem ptr_eq_loopStart_iff (ch : Channel) :
    ch.ptr = loopStart ch ↔ ch.ptr.toNat = (ch.sad.toNat + 4 * ch.pnt.toNat) % 2 ^ 32 := by
  rw [loopStart_eq_ofNat, ← BitVec.toNat_inj, BitVec.toNat_ofNat]

/-- Settles O35: the two branches of the capture. -/
theorem snapshotCapture : Obligations.SnapshotCapture := by
  intro c s ch onStart
  have htest : ch.ptr = loopStart ch ∧ ch.nsel = false ↔ onStart := and_congr_left' (ptr_eq_loopStart_iff ch)
  exact ⟨fun h => congrArg Host.Outcome.next (if_pos (htest.mpr h)),
    fun h => congrArg Host.Outcome.next (if_neg (mt htest.mp h))⟩

/-- Settles O36: the row is this one update of the channel. -/
theorem snapshotRestore : Obligations.SnapshotRestore := fun _ _ => rfl

/-- A capture of what the snapshot holds already changes nothing, wherever the pointer stands (derived in R142). -/
theorem captureSnap_eq_self {c : Chan} {s : State} (hacc : (getChan s c).acc = (getChan s c).snapAcc)
    (hidx : (getChan s c).idx = (getChan s c).snapIdx) : captureSnap c s = s := by
  have hsame : setChan s c { getChan s c with snapAcc := (getChan s c).acc, snapIdx := (getChan s c).idx } = s :=
    (congrArg₂ (fun a i => setChan s c { getChan s c with snapAcc := a, snapIdx := i }) hacc hidx).trans
      (setChan_getChan s c)
  exact ite_eq_right_iff.mpr fun _ => hsame

/-- Settles O37: the wrap is the one of O30, and the decoder it leaves is the snapshot. -/
theorem snapshotSurvivesTheWrap : Obligations.SnapshotSurvivesTheWrap := by
  intro c s ch hfmt hrep hptr
  obtain ⟨-, hloop, -⟩ := endOfDataByRepeatMode c s
  have hwrap := hloop (by rw [hfmt]; decide) hptr hrep
  rw [if_pos hfmt] at hwrap
  refine ⟨_, hwrap, ?_⟩
  rw [exec_snapCapture, captureSnap_eq_self (by rw [getChan_setChan_same]) (by rw [getChan_setChan_same]),
    getChan_setChan_same]
  exact ⟨rfl, rfl, rfl, rfl, rfl, rfl⟩

/-! ### The step table -/

theorem stepSize_of_le (p : Params) {idx : BitVec 7} (h : idx.toNat ≤ 88) :
    stepSize p idx = p.stepTable[idx.toNat].toNat := dif_pos (Nat.lt_succ_of_le h)

/-- Settles O33: an index up to 88 is inside the table, and the rule of R131 is run for the 89 numbers. -/
theorem stepTableIsTheGeneratedOne : Obligations.StepTableIsTheGeneratedOne := by
  constructor
  · intro p idx h
    exact ⟨_, Vector.getElem?_eq_getElem (Nat.lt_succ_of_le h), stepSize_of_le p h⟩
  · rfl

/-! ### The sixteen codes -/

/-- The row of a code is the decode step with that code (R135). -/
theorem exec_decodeNibble (c : Chan) (n : BitVec 4) (s : State) :
    exec (decodeNibble c n) s = .next (decodeStep n c s) := by
  obtain ⟨i, hi⟩ := n
  interval_cases i <;> rfl

/-- The sixteen rows with their numbers are the codes as the decoder names them. -/
theorem exists_code_of_mem {c : Chan} {p : Instr × Nat}
    (h : p ∈ [(.nib0 c, 0x0), (.nib1 c, 0x1), (.nib2 c, 0x2), (.nib3 c, 0x3), (.nib4 c, 0x4), (.nib5 c, 0x5),
      (.nib6 c, 0x6), (.nib7 c, 0x7), (.nib8 c, 0x8), (.nib9 c, 0x9), (.nibA c, 0xA), (.nibB c, 0xB), (.nibC c, 0xC),
      (.nibD c, 0xD), (.nibE c, 0xE), (.nibF c, 0xF)]) :
    ∃ n : BitVec 4, (decodeNibble c n, n.toNat) = p := by
  obtain ⟨i, hi⟩ := List.mem_ofFn.mp (show p ∈ List.ofFn fun i : Fin 16 => (decodeNibble c ⟨i⟩, i.val) from h)
  exact ⟨⟨i⟩, hi⟩

theorem getLsbD_eq_true_iff {w : Nat} (x : BitVec w) (i : Nat) : x.getLsbD i = true ↔ x.toNat / 2 ^ i % 2 = 1 := by
  rw [BitVec.getLsbD, Nat.testBit_eq_decide_div_mod_eq, decide_eq_true_eq]

/-- The magnitude of a code selects the terms of its delta (R136). -/
theorem nibbleDelta_eq (t : Nat) (n : BitVec 4) :
    let m := n.toNat % 8
    nibbleDelta t n = t / 8 + (if m % 2 = 1 then t / 4 else 0) + (if m / 2 % 2 = 1 then t / 2 else 0) +
      (if m / 4 = 1 then t else 0) := by
  have h0 : n.getLsbD 0 = true ↔ n.toNat % 8 % 2 = 1 := by rw [getLsbD_eq_true_iff]; omega
  have h1 : n.getLsbD 1 = true ↔ n.toNat % 8 / 2 % 2 = 1 := by rw [getLsbD_eq_true_iff]; omega
  have h2 : n.getLsbD 2 = true ↔ n.toNat % 8 / 4 = 1 := by rw [getLsbD_eq_true_iff]; omega
  simp only [nibbleDelta, h0, h1, h2]

/-- Bit 3 of a code is its sign (R137). -/
theorem getLsbD_three_iff (n : BitVec 4) : n.getLsbD 3 = true ↔ 8 ≤ n.toNat := by
  rw [getLsbD_eq_true_iff]
  omega

/-- `INDEX_DELTA` is read at the magnitude of the code (R132). -/
theorem indexChange_eq (p : Params) (n : BitVec 4) : indexChange p n = p.indexDelta[n.toNat % 8]?.getD 0 := by
  have hm : (n.extractLsb' 0 3).toNat = n.toNat % 8 := by simp
  have hlt : n.toNat % 8 < 8 := Nat.mod_lt _ (by decide)
  rw [Vector.getElem?_eq_getElem hlt, Option.getD_some]
  simp only [indexChange, Fin.getElem_fin, ← hm]
  rfl

/-- The accumulator has room for what the clamp leaves (R137; D6). -/
theorem toInt_clampedAcc (v : Int) :
    (BitVec.ofInt 17 (clamp v accMin accMax)).toInt = max (-0x7FFF) (min 0x7FFF v) := by
  rw [clamp_eq v accMin accMax (by decide), accMin, accMax]
  exact BitVec.toInt_ofInt_eq_self (by decide) (by omega) (by omega)

/-- So has the index (R138; D7). -/
theorem toNat_clampedIdx (v : Int) : ((BitVec.ofInt 7 (clamp v 0 idxMax)).toNat : Int) = max 0 (min 88 v) := by
  rw [clamp_eq v 0 idxMax (by decide), idxMax, BitVec.toNat_ofInt]
  omega

/-- Settles O32: a row is the decode step with its code, whose bits are read as numbers. -/
theorem sixteenCodes : Obligations.SixteenCodes := by
  intro c s p hp ch t m delta change
  obtain ⟨n, rfl⟩ := exists_code_of_mem hp
  have hdelta : (nibbleDelta t n : Int) = delta := by
    rw [nibbleDelta_eq]
    simp only [Nat.cast_add, Int.natCast_ediv]
    rfl
  have hsum : (if n.getLsbD 3 then ch.acc.toInt - nibbleDelta t n else ch.acc.toInt + nibbleDelta t n) =
      if 8 ≤ n.toNat then ch.acc.toInt - delta else ch.acc.toInt + delta := by
    simp only [getLsbD_three_iff, hdelta]
  have hchange : indexChange s.params n = change := indexChange_eq s.params n
  refine ⟨_, _, exec_decodeNibble c n s, ?acc, ?idx⟩
  case acc => rw [toInt_clampedAcc, hsum]
  case idx => rw [toNat_clampedIdx, hchange]

/-! ### The advance -/

/-- A read leaves the state with the stores that land before it and its own record (20_memory.md R60). -/
theorem readMem_state (a : Word) (n : Nat) (s : State) :
    let m := storeAll s.mem (s.busStores.headD [])
    (readMem a n s).2 = { s with
      mem := m
      busStores := s.busStores.tail
      history := .memRead s.params.memPriv a n (memValue m a n) :: s.history } := rfl

/-- The capture leaves what selects the next code alone. -/
theorem captureSnap_ptr_nsel (c : Chan) (s : State) :
    (getChan (captureSnap c s) c).ptr = (getChan s c).ptr ∧
      (getChan (captureSnap c s) c).nsel = (getChan s c).nsel := by
  unfold captureSnap
  dsimp only
  split <;> simp

theorem selectNibble_zeroExtend (highFirst nsel : Bool) (b : Byte) :
    selectNibble highFirst nsel (b.zeroExtend 32) =
      if nsel != highFirst then b.extractLsb' 4 4 else b.extractLsb' 0 4 := by
  have hhalf (i : Nat) (hi : i + 4 ≤ 32) : (b.zeroExtend 32).extractLsb' i 4 = b.extractLsb' i 4 := by
    ext j hj
    have hbit : i + j < 32 := by omega
    simp [hbit]
  rw [selectNibble, hhalf 4 (by decide), hhalf 0 (by decide)]

/-- Settles O34: the capture leaves pointer, selector and memory for the fetch, and the code is decoded where the
fetch left off. -/
theorem adpcmAdvanceIsCaptureFetchDecode : Obligations.AdpcmAdvanceIsCaptureFetchDecode := by
  intro c s ch m b high n
  obtain ⟨hptr, hnsel⟩ := captureSnap_ptr_nsel c s
  obtain ⟨hhistory, hmem, hstores⟩ := captureSnap_ports c s
  have hparams : (captureSnap c s).params = s.params := (captureSnap_onlyChannel c s).rest.params
  have hfetch : advanceAdpcm c s = decodeStep n c
      { captureSnap c s with
        mem := m
        busStores := s.busStores.tail
        history := .memRead s.params.memPriv ch.ptr 1 (b.zeroExtend 32) :: s.history } := by
    rw [advanceAdpcm]
    simp only [readMem_state, readMem_value, memValue_one, hptr, hnsel, hhistory, hmem, hstores, hparams,
      selectNibble_zeroExtend]
    rfl
  exact ⟨_, _, exec_snapCapture c s, exec_decodeNibble c n _, congrArg Host.Outcome.next hfetch⟩

end Sys2Proof.Machine
end

section
/-! The volume and pan blender, the master mixer and the output stage (42_volume_pan_mixer.md R150 to R159): what each
field is as a number, then the functions in closed form, where every division but the floors of the pan shift and of the
bias step is exact (R160). -/

namespace Sys2Proof.Machine

/-! ### The fields as numbers -/

theorem toNat_eq_127_iff (field : BitVec 7) : field.toNat = 127 ↔ field = 127 := BitVec.toNat_inj (y := 127)

theorem toNat_eq_three_iff (field : BitVec 2) : field.toNat = 3 ↔ field = 3 := BitVec.toNat_inj (y := 3)

theorem natCast_upTo128 (field : BitVec 7) :
    (upTo128 field : Int) = if field.toNat = 127 then 128 else (field.toNat : Int) := by
  rw [upTo128, apply_ite Nat.cast]
  simp only [toNat_eq_127_iff, Nat.cast_ofNat]

theorem divShift_eq (p : Params) (cnt : Word) :
    divShift p cnt =
      if (cnt.extractLsb' p.layout.vdiv 2).toNat = 3 then 4 else (cnt.extractLsb' p.layout.vdiv 2).toNat := by
  simp only [divShift, toNat_eq_three_iff]

theorem natCast_masterVolume (p : Params) (master : Half) :
    (masterVolume p master : Int) =
      if (master.extractLsb' p.layout.mvol 7).toNat = 127 ∧ p.mvol127Is128 = true then 128
      else ((master.extractLsb' p.layout.mvol 7).toNat : Int) := by
  simp only [masterVolume, apply_ite Nat.cast, toNat_eq_127_iff, Bool.and_eq_true, decide_eq_true_eq, Nat.cast_ofNat]

/-! ### Volume and pan -/

/-- Seven extra fractional bits and the division by 128 cancel, also for a negative sample (R150, R152). -/
theorem mul_mul_ediv_128 (x factor : Int) : x * 2 ^ 7 * factor / 128 = x * factor := by
  rw [mul_right_comm]
  exact Int.mul_ediv_cancel _ (by decide)

theorem scaleVolume_eq (p : Params) (cnt : Word) (raw : Int) :
    scaleVolume p cnt raw = raw * 2 ^ (4 - divShift p cnt) * volFactor p cnt :=
  mul_mul_ediv_128 _ _

theorem panLeft_eq (p : Params) (cnt : Word) (s11 : Int) :
    panLeft p cnt s11 = s11 * (128 - panFactor p cnt) / 1024 := by
  rw [panLeft, mul_mul_ediv_128]
  rfl

theorem panRight_eq (p : Params) (cnt : Word) (s11 : Int) : panRight p cnt s11 = s11 * panFactor p cnt / 1024 := by
  rw [panRight, mul_mul_ediv_128]
  rfl

theorem exec_volume (c : Chan) (s : State) : exec (.volume c) s = .next (setDp s
    { s.dp with s11 := scaleVolume s.params (getChan s c).cnt s.dp.raw }) := rfl

theorem exec_pan (c : Chan) (s : State) : exec (.pan c) s = .next (setDp s
    { s.dp with
      l := panLeft s.params (getChan s c).cnt s.dp.s11
      r := panRight s.params (getChan s c).cnt s.dp.s11 }) := rfl

/-- Settles O38: the inner divisions are exact, so the floor of the pan shift is left. -/
theorem volumeAndPanClosedForm : Obligations.VolumeAndPanClosedForm := by
  intro c s cnt lay vdiv vmul field sh mul pan
  have hmul : (volFactor s.params cnt : Int) = mul := natCast_upTo128 _
  have hpan : (panFactor s.params cnt : Int) = pan := natCast_upTo128 _
  have hsh : divShift s.params cnt = sh := divShift_eq _ _
  constructor
  · rw [exec_volume, scaleVolume_eq, hsh, hmul, setDp]
  · rw [exec_pan, panLeft_eq, panRight_eq, hpan, setDp]

/-! ### The output stage -/

/-- The thirteen extra fractional bits are the division by 128 * 64 (R155). -/
theorem scaleMaster_eq (p : Params) (master : Half) (sum : Int) :
    scaleMaster p master sum = sum * masterVolume p master := by
  rw [scaleMaster, mul_right_comm]
  exact Int.mul_ediv_cancel _ (by decide)

theorem clip_eq (b : Int) : clip b = max 0 (min 1023 b) := clamp_eq b outMin outMax (by decide)

/-- Settles O39, a step at a time. -/
theorem outputStageSteps : Obligations.OutputStageSteps := by
  intro s mvol vol bias d
  have hvol : (masterVolume s.params s.master : Int) = vol := natCast_masterVolume _ _
  refine ⟨?master, ?bias, ?clip, ?recentre, ?pack⟩
  case master => rw [exec_mixMaster, scaleMaster_eq, scaleMaster_eq, hvol, setDp]
  case bias => rw [exec_mixBias, addBias, addBias, setDp, biasValue]
  case clip => rw [exec_mixClip, clip_eq, clip_eq, setDp]
  case recentre => rw [exec_mixRecentre, setDp]; rfl
  case pack => exact ⟨_, exec_mixPack s, packFrame_right _ _, packFrame_left _ _⟩

end Sys2Proof.Machine
end

section
/-! The synchronizer's rows, each as the operation it runs and what that operation does where the rule enables it
(43_synchronizer.md R171 to R183). -/

namespace Sys2Proof.Machine

/-! ### Producer side -/

theorem exec_swap (s : State) : exec .swap s = .next (swapBuffers s) := rfl

theorem exec_swapReq (s : State) : exec .swapReq s = .next (requestSwap s) := rfl

theorem exec_swapRelease (s : State) : exec .swapRelease s = .next (releaseSwap s) := rfl

theorem releaseSwap_enabled {s : State} (hpending : s.swapPending = true) (hready : s.ready = false) :
    releaseSwap s = swapBuffers s :=
  ((releaseSwap_cases s).resolve_right fun ⟨hoff, _⟩ => hoff ⟨hpending, hready⟩).2.2

theorem releaseSwap_disabled {s : State} (hoff : ¬(s.swapPending = true ∧ s.ready = false)) : releaseSwap s = s :=
  ((releaseSwap_cases s).resolve_left fun ⟨hpending, hready, _⟩ => hoff ⟨hpending, hready⟩).2

/-- With `limit_rate` 0 a swap request swaps at once (R173). -/
theorem requestSwap_unthrottled {s : State} (hlimit : s.limitRate = false) : requestSwap s = swapBuffers s :=
  ((requestSwap_cases s).resolve_left fun ⟨hthrottled, _⟩ => ne_true_of_eq_false hlimit hthrottled).2

/-- Settles O45, by what `PUSH` can do. -/
theorem pushStoresAndMayRequestASwap : Obligations.PushStoresAndMayRequestASwap := by
  intro f s s1
  rw [exec_push]
  have hstored : { writeFrame s s.wsel s.wcur f with wcur := s.wcur + 1 } = s1 := by rw [writeFrame_eq]
  rcases pushFrame_cases f s with ⟨hcap, he⟩ | ⟨hcap, hroom, he⟩ | ⟨hcap, hfull, he⟩ <;> rw [he]
  · exact ⟨fun _ => rfl, fun hne => absurd hcap hne, fun hne => absurd hcap hne⟩
  · rw [hstored]
    exact ⟨fun h0 => absurd h0 hcap, fun _ _ => rfl, fun _ hfull => absurd hfull hroom⟩
  · rw [hstored]
    exact ⟨fun h0 => absurd h0 hcap, fun _ hroom => absurd hfull hroom, fun _ _ => ⟨_, exec_swapReq s1, rfl⟩⟩

/-- Settles O46, by what `SWAP.REQ` can do. -/
theorem swapRequestStallsOrSwaps : Obligations.SwapRequestStallsOrSwaps := by
  intro s
  rw [exec_swapReq]
  rcases requestSwap_cases s with ⟨hlimit, hready, he⟩ | ⟨hswaps, he⟩ <;> rw [he]
  · refine ⟨fun _ _ => rfl, fun hswaps => ?_⟩
    simp [hlimit, hready] at hswaps
  · refine ⟨fun hlimit hready => ?_, fun _ => ⟨_, exec_swap s, rfl⟩⟩
    simp [hlimit, hready] at hswaps

/-- Settles O47: the row is the swap, whose update is the one R174 lists. -/
theorem swapExchangesIdentities : Obligations.SwapExchangesIdentities := exec_swap

/-- Settles O48: enabled, the release is the swap, which leaves nothing pending. -/
theorem releaseSwaps : Obligations.ReleaseSwaps := by
  intro s hpending hready
  exact ⟨_, exec_swap s, congrArg Host.Outcome.next (releaseSwap_enabled hpending hready), rfl, rfl⟩

/-! ### The start of a request -/

theorem exec_resize (n : Word) (s : State) : exec (.resize n) s = .next (resizeOrRace n s) := rfl

theorem exec_reqStart (n : Word) (s : State) : exec (.reqStart n) s = .next (whenIdle s (startRequest n)) := rfl

/-- The request of the port is its first step (30_encoding.md R88, R178). -/
theorem exec_req (n : Word) (s : State) : exec (.req n) s = exec (.reqStart n) s := rfl

theorem exec_reqStart_idle {s : State} (hidle : s.reqPhase = .idle) (n : Word) :
    exec (.reqStart n) s = .next (startRequest n s) :=
  congrArg Host.Outcome.next (whenIdle_idle hidle _)

/-- After a resize race the model's mark is set, whatever it was (60_exceptions.md R231, R233). -/
theorem raiseFault_of_isRace {f : FaultRecord} (hf : isRace f = true) (s : State) :
    raiseFault f s = { s with fault := some (s.fault.getD f), raced := true } := by
  rw [raiseFault, hf, Bool.or_true]

theorem resizeOrRace_pending {s : State} (hpending : s.swapPending = true) (n : Word) :
    resizeOrRace n s = raiseFault (.resizeRace n) s := if_pos hpending

theorem resizeOrRace_free {s : State} (hfree : s.swapPending = false) (n : Word) :
    resizeOrRace n s = resizeTo n s := if_neg (ne_true_of_eq_false hfree)

theorem startRequest_zero (s : State) : startRequest 0 s = raiseFault (.reqZero 0) s := rfl

section
variable {n : Word} {s : State} (hn : n ≠ 0)
include hn

theorem startRequest_tooLarge (hlarge : s.params.bufMax < n.toNat) : startRequest n s = raiseFault (.alloc n) s := by
  rw [startRequest, if_neg hn, if_pos hlarge]

theorem startRequest_sameSize (hmax : n.toNat ≤ s.params.bufMax) (hcap : n.toNat = s.cap) :
    startRequest n s = beginWait n s := by
  rw [startRequest, if_neg hn, if_neg hmax.not_gt, if_pos hcap]

theorem startRequest_race (hmax : n.toNat ≤ s.params.bufMax) (hcap : n.toNat ≠ s.cap) (hpending : s.swapPending = true) :
    startRequest n s = raiseFault (.resizeRace n) s := by
  rw [startRequest, if_neg hn, if_neg hmax.not_gt, if_neg hcap, if_pos hpending]

theorem startRequest_resize (hmax : n.toNat ≤ s.params.bufMax) (hcap : n.toNat ≠ s.cap) (hfree : s.swapPending = false) :
    startRequest n s = beginWait n (resizeTo n s) := by
  rw [startRequest, if_neg hn, if_neg hmax.not_gt, if_neg hcap, if_neg (ne_true_of_eq_false hfree)]

end

/-- Settles O49, a check at a time. -/
theorem requestStart : Obligations.RequestStart := by
  intro n s hidle i hi recorded
  have hexec : exec i s = .next (startRequest n s) := by
    rcases hi with rfl | rfl
    exacts [(exec_req n s).trans (exec_reqStart_idle hidle n), exec_reqStart_idle hidle n]
  rw [hexec]
  refine ⟨?zero, ?tooLarge, ?sameSize, ?race, ?resize⟩
  case zero =>
    rintro rfl
    rw [startRequest_zero, raiseFault_of_not_isRace rfl]
  case tooLarge =>
    intro hn hlarge
    rw [startRequest_tooLarge hn hlarge, raiseFault_of_not_isRace rfl]
  case sameSize =>
    intro hn hmax hcap
    rw [startRequest_sameSize hn hmax hcap, beginWait]
  case race =>
    intro hn hmax hcap hpending
    rw [startRequest_race hn hmax hcap hpending, raiseFault_of_isRace rfl]
  case resize =>
    intro hn hmax hcap hfree
    refine ⟨resizeTo n s, congrArg Host.Outcome.next (resizeOrRace_free hfree n), ?_⟩
    rw [startRequest_resize hn hmax hcap hfree, beginWait]

/-- Settles O50, by whether a swap is pending. -/
theorem resizeDrawsNewBuffers : Obligations.ResizeDrawsNewBuffers := by
  intro n s
  rw [exec_resize]
  refine ⟨fun hfree => ?_, fun hpending => ?_⟩
  · rw [resizeOrRace_free hfree]
    exact ⟨_, _, length_drawnFrames s.draws false n.toNat, length_drawnFrames s.draws true n.toNat, rfl⟩
  · rw [resizeOrRace_pending hpending, raiseFault_of_isRace rfl]

/-! ### The end of a request -/

theorem exec_reqTake (s : State) : exec .reqTake s = .next (takeFrames s) := rfl

theorem exec_reqExpire (s : State) : exec .reqExpire s = .next (expireWait s) := rfl

theorem exec_reqFallback (s : State) : exec .reqFallback s = .next (fallBack s) := rfl

section
variable {s : State}

theorem takeFrames_enabled (hwait : s.reqPhase = .waiting) (hready : s.ready = true) :
    takeFrames s = deliver (readyFrames s) s :=
  ((takeFrames_cases s).resolve_right fun ⟨hoff, _⟩ => hoff ⟨hwait, hready⟩).2.2

theorem takeFrames_disabled (hoff : ¬(s.reqPhase = .waiting ∧ s.ready = true)) : takeFrames s = s :=
  ((takeFrames_cases s).resolve_left fun ⟨hwait, hready, _⟩ => hoff ⟨hwait, hready⟩).2

theorem expireWait_enabled (hwait : s.reqPhase = .waiting) (hready : s.ready = false) :
    expireWait s = { s with reqPhase := .expired } :=
  ((expireWait_cases s).resolve_right fun ⟨hoff, _⟩ => hoff ⟨hwait, hready⟩).2.2

theorem expireWait_disabled (hoff : ¬(s.reqPhase = .waiting ∧ s.ready = false)) : expireWait s = s :=
  ((expireWait_cases s).resolve_left fun ⟨hwait, hready, _⟩ => hoff ⟨hwait, hready⟩).2

theorem fallBack_enabled (hexpired : s.reqPhase = .expired) : fallBack s = deliver (repeatedFrames s) s :=
  ((fallBack_cases s).resolve_right fun ⟨hoff, _⟩ => hoff hexpired).2

theorem fallBack_disabled (hoff : s.reqPhase ≠ .expired) : fallBack s = s :=
  ((fallBack_cases s).resolve_left fun ⟨hexpired, _⟩ => hoff hexpired).2

end

/-! ### The frames a request delivers -/

theorem readFrame_of_getElem? {s : State} {b : Bool} {i : Nat} {f : Frame} (h : (getBuf s b)[i]? = some f) :
    readFrame s b i = f := by
  rw [readFrame, h]

theorem length_readyFrames (s : State) : (readyFrames s).length = s.reqCount.toNat := by
  rw [readyFrames, List.length_map, List.length_range]

theorem length_repeatedFrames (s : State) : (repeatedFrames s).length = s.reqCount.toNat := List.length_replicate

/-- Inside the ready buffer the frames taken are the first ones of it (R181). -/
theorem readyFrames_eq_take {s : State} (hlen : s.reqCount.toNat ≤ (getBuf s (!s.wsel)).length) :
    readyFrames s = (getBuf s (!s.wsel)).take s.reqCount.toNat := by
  refine List.ext_getElem ?_ fun i hi _ => ?_
  · rw [length_readyFrames, List.length_take_of_le hlen]
  · rw [length_readyFrames] at hi
    simp only [readyFrames, List.getElem_map, List.getElem_range, List.getElem_take]
    exact readFrame_of_getElem? (List.getElem?_eq_getElem (hi.trans_le hlen))

/-- Both endings deliver the same last frame: that at index `REQ_COUNT - 1` of the ready buffer (R181, R183). -/
theorem getLast?_readyFrames {s : State} (hcount : s.reqCount.toNat ≠ 0) :
    (readyFrames s).getLast? = some (readFrame s (!s.wsel) (s.reqCount.toNat - 1)) := by
  rw [readyFrames, List.getLast?_map, List.getLast?_range, if_neg hcount, Option.map_some]

theorem getLast?_repeatedFrames {s : State} (hcount : s.reqCount.toNat ≠ 0) :
    (repeatedFrames s).getLast? = some (readFrame s (!s.wsel) (s.reqCount.toNat - 1)) := by
  rw [repeatedFrames, List.getLast?_replicate, if_neg hcount]

/-- Settles O51, an ending at a time. -/
theorem requestEndings : Obligations.RequestEndings := by
  intro s n buf ended
  refine ⟨?take, ?expire, ?fallback⟩
  case take =>
    intro hwait hready hlen
    rw [exec_reqTake, takeFrames_enabled hwait hready, readyFrames_eq_take hlen]
    rfl
  case expire =>
    intro hwait hready
    rw [exec_reqExpire, expireWait_enabled hwait hready]
  case fallback =>
    intro f hexpired hlast
    rw [exec_reqFallback, fallBack_enabled hexpired, repeatedFrames, readFrame_of_getElem? hlast]
    rfl

end Sys2Proof.Machine
end

section
/-! What a command does once it is accepted, and that it does nothing while a swap is pending (43_synchronizer.md R175,
R186). -/

namespace Sys2Proof.Machine

/-! ### The masked write of a control register -/

theorem sameButChannels_setChan (c : Chan) (ch : Channel) (s : State) : SameButChannels s (setChan s c ch) := by
  constructor <;> rfl

theorem sameButChannels_readMem (a : Word) (n : Nat) (s : State) : SameButChannels s (readMem a n s).2 := by
  constructor <;> rfl

theorem loadHeader_sameButChannels (c : Chan) (s : State) : SameButChannels s (loadHeader c s) :=
  (sameButChannels_readMem _ _ _).trans (sameButChannels_setChan _ _ _)

theorem restartGenerator_sameButChannels (c : Chan) (s : State) : SameButChannels s (restartGenerator c s) := by
  rcases restartGenerator_cases c s with ⟨-, -, he⟩ | ⟨-, -, he⟩ | ⟨-, he⟩ <;> rw [he]
  · exact sameButChannels_setChan _ _ _
  · exact sameButChannels_setChan _ _ _
  · exact .refl s

theorem reloadChan_sameButChannels (c : Chan) (s : State) : SameButChannels s (reloadChan c s) := by
  rcases reloadChan_cases c s with ⟨-, he⟩ | ⟨-, he⟩ | ⟨-, he⟩ <;> rw [he]
  · exact sameButChannels_setChan _ _ _
  · exact (sameButChannels_setChan _ _ _).trans (loadHeader_sameButChannels c _)
  · exact (sameButChannels_setChan _ _ _).trans (restartGenerator_sameButChannels c _)

/-- `WR_CNT` with its edge stays in the channels and at the read port (44_register_bank.md R202 to R205). -/
theorem writeCnt_sameButChannels (c : Chan) (m v : Word) (s : State) : SameButChannels s (writeCnt c m v s) := by
  rcases writeCnt_cases c m v s with ⟨-, he⟩ | ⟨-, he⟩ <;> rw [he]
  · exact (sameButChannels_setChan _ _ _).trans (reloadChan_sameButChannels c _)
  · exact sameButChannels_setChan _ _ _

/-! ### TICK -/

theorem pushFrame_unthrottled_swapPending {s : State} (f : Frame) (hlimit : s.limitRate = false)
    (hfree : s.swapPending = false) : (pushFrame f s).swapPending = false := by
  rcases pushFrame_cases f s with ⟨-, he⟩ | ⟨-, -, he⟩ | ⟨-, -, he⟩ <;> rw [he]
  · exact hfree
  · rw [writeFrame_eq]
    exact hfree
  · rw [writeFrame_eq, requestSwap_unthrottled (by exact hlimit)]
    rfl

theorem runTick_unthrottled_swapPending {s : State} (hlimit : s.limitRate = false) (hfree : s.swapPending = false) :
    (runTick s).swapPending = false := by
  obtain ⟨f, hrun⟩ := runTick_eq_pushFrame s
  have hrest := (tickChans_frame s).rest
  rw [hrun]
  exact pushFrame_unthrottled_swapPending f (hrest.limitRate.trans hlimit) (hrest.swapPending.trans hfree)

/-! ### Every command -/

/-- The operation is a command of the `cmd` port: it waits while a swap is pending, has the effect `run` otherwise, and
leaves no swap pending as long as `limit_rate` is 0. -/
structure CommandEffect (i : Instr) (run : State → State) : Prop where
  exec_eq : ∀ s, exec i s = .next (whenAccepted s run)
  unthrottled : ∀ s, s.limitRate = false → s.swapPending = false → (run s).swapPending = false

theorem commandEffect_reservedFx (code : Byte) :
    CommandEffect (.reservedFx code) (raiseFault (.cmdReserved code)) := ⟨fun _ => rfl, fun _ _ hfree => hfree⟩

/-- Every command word is a command, by the table of 30_encoding.md R87. -/
theorem exists_commandEffect (w : BitVec 72) : ∃ run, CommandEffect (decodeCommand w) run := by
  unfold decodeCommand
  dsimp only
  split
  case h_1 =>
    exact ⟨_, fun _ => rfl, fun s _ hfree => (writeCnt_sameButChannels _ _ _ s).swapPending.trans hfree⟩
  case h_2 | h_3 | h_4 | h_5 | h_9 | h_10 | h_11 | h_12 | h_13 => exact ⟨_, fun _ => rfl, fun _ _ hfree => hfree⟩
  case h_6 | h_7 | h_14 | h_15 =>
    split
    · exact ⟨_, fun _ => rfl, fun _ _ hfree => hfree⟩
    · exact ⟨_, commandEffect_reservedFx _⟩
  case h_8 =>
    split
    · exact ⟨runTick, fun _ => rfl, fun _ => runTick_unthrottled_swapPending⟩
    · exact ⟨_, commandEffect_reservedFx _⟩
  case h_16 => exact ⟨_, commandEffect_reservedFx _⟩

/-- Settles O19: a command waits, and every step of the synchronizer is disabled, as a rule of its own says. -/
theorem waitingStepsChangeNothing : Obligations.WaitingStepsChangeNothing := by
  refine ⟨fun w s hpending => ?_, fun n s => ⟨?release, ?request, ?take, ?expire, ?fallback⟩⟩
  · obtain ⟨run, hcmd⟩ := exists_commandEffect w
    rw [hcmd.exec_eq, whenAccepted_held hpending]
  case release => exact fun hoff => congrArg Host.Outcome.next (releaseSwap_disabled hoff)
  case request =>
    intro hbusy
    rw [exec_req, and_self, exec_reqStart, whenIdle_busy hbusy]
  case take => exact fun hoff => congrArg Host.Outcome.next (takeFrames_disabled hoff)
  case expire => exact fun hoff => congrArg Host.Outcome.next (expireWait_disabled hoff)
  case fallback => exact fun hoff => congrArg Host.Outcome.next (fallBack_disabled hoff)

/-- Settles O53: the command is accepted, and unthrottled its effect leaves no swap pending. -/
theorem unthrottledProducerNeverStalls : Obligations.UnthrottledProducerNeverStalls := by
  intro w s hlimit hfree
  obtain ⟨run, hcmd⟩ := exists_commandEffect w
  exact ⟨run s, (hcmd.exec_eq s).trans (congrArg _ (whenAccepted_run hfree run)), hcmd.unthrottled s hlimit hfree⟩

end Sys2Proof.Machine
end

section
/-! The turns of a stalled producer and of a consumer inside a request, a step each, and the runs they make: a request that
finds nothing ready expires and falls back (43_synchronizer.md R175, R176, R178 to R187). -/

namespace Sys2Proof.Machine

/-! ### The agents' turns -/

theorem producerTurn_stalled {s : State} (hpending : s.swapPending = true) : producerTurn s = exec .swapRelease s :=
  if_pos hpending

section
variable {s : State} (deadlinePassed : Bool)

theorem consumerTurn_take (hwait : s.reqPhase = .waiting) (hready : s.ready = true) :
    consumerTurn deadlinePassed s = exec .reqTake s := by
  simp [consumerTurn, hwait, hready]

theorem consumerTurn_poll (hwait : s.reqPhase = .waiting) (hready : s.ready = false) : consumerTurn false s = .next s := by
  simp [consumerTurn, hwait, hready]

theorem consumerTurn_expire (hwait : s.reqPhase = .waiting) (hready : s.ready = false) :
    consumerTurn true s = exec .reqExpire s := by
  simp [consumerTurn, hwait, hready]

theorem consumerTurn_fallback (hexpired : s.reqPhase = .expired) :
    consumerTurn deadlinePassed s = exec .reqFallback s := by
  simp [consumerTurn, hexpired]

theorem consumerTurn_rest (hidle : s.reqPhase = .idle) (hq : s.reqQ = []) : consumerTurn deadlinePassed s = .next s := by
  simp [consumerTurn, hidle, hq]

end

/-- Settles O8: the turn is the release, which does not happen while `READY` is 1. -/
theorem stalledProducerOnlyReleases : Obligations.StalledProducerOnlyReleases := by
  intro s ts hturn hpending hraced
  have hstep : step s = exec .swapRelease { s with turns := ts } :=
    (step_producerTurn hturn hraced).trans (producerTurn_stalled hpending)
  refine ⟨fun hready => ?_, fun _ => hstep⟩
  rw [hstep, exec_swapRelease, releaseSwap_disabled (by simp [hready])]

/-- Settles O9, by the phase, `READY` and the turn. -/
theorem consumerTurnsInsideARequest : Obligations.ConsumerTurnsInsideARequest := by
  intro s t ts hagent hturn hraced
  rw [step_consumerTurn hagent hturn hraced]
  refine ⟨fun hwait hready => consumerTurn_take _ hwait hready, fun hwait hready ht => ?_, fun hwait hready ht => ?_,
    fun hexpired => consumerTurn_fallback _ hexpired⟩
  · subst ht
    exact consumerTurn_poll hwait hready
  · subst ht
    exact consumerTurn_expire hwait hready

/-! ### One step of a consumer -/

section
variable {s : State} {t : Turn} {ts : List Turn}

theorem step_accept {n : Word} {rest : List Word} (hagent : t = .consumer ∨ t = .deadline) (hturn : s.turns = t :: ts)
    (hraced : s.raced = false) (hidle : s.reqPhase = .idle) (hq : s.reqQ = n :: rest) (hn : n ≠ 0)
    (hmax : n.toNat ≤ s.params.bufMax) (hcap : n.toNat = s.cap) :
    step s = .next (beginWait n { s with turns := ts, reqQ := rest }) :=
  calc step s
    _ = exec (.reqStart n) { s with turns := ts, reqQ := rest } :=
      stepRunsTheDecodedRequest s t n rest ts hagent hturn hq hidle hraced
    _ = .next (startRequest n { s with turns := ts, reqQ := rest }) :=
      exec_reqStart_idle (s := { s with turns := ts, reqQ := rest }) hidle n
    _ = .next (beginWait n { s with turns := ts, reqQ := rest }) :=
      congrArg Host.Outcome.next (startRequest_sameSize hn hmax hcap)

theorem step_take (hagent : t = .consumer ∨ t = .deadline) (hturn : s.turns = t :: ts) (hraced : s.raced = false)
    (hwait : s.reqPhase = .waiting) (hready : s.ready = true) :
    step s = .next (deliver (readyFrames s) { s with turns := ts }) :=
  ((step_consumerTurn hagent hturn hraced).trans (consumerTurn_take _ hwait hready)).trans
    (congrArg Host.Outcome.next (takeFrames_enabled hwait hready))

theorem step_poll (hturn : s.turns = .consumer :: ts) (hraced : s.raced = false) (hwait : s.reqPhase = .waiting)
    (hready : s.ready = false) : step s = .next { s with turns := ts } :=
  (step_consumerTurn (.inl rfl) hturn hraced).trans (consumerTurn_poll hwait hready)

theorem step_expire (hturn : s.turns = .deadline :: ts) (hraced : s.raced = false) (hwait : s.reqPhase = .waiting)
    (hready : s.ready = false) : step s = .next { s with turns := ts, reqPhase := .expired } :=
  ((step_consumerTurn (.inr rfl) hturn hraced).trans (consumerTurn_expire hwait hready)).trans
    (congrArg Host.Outcome.next (expireWait_enabled hwait hready))

theorem step_fallback (hagent : t = .consumer ∨ t = .deadline) (hturn : s.turns = t :: ts) (hraced : s.raced = false)
    (hexpired : s.reqPhase = .expired) : step s = .next (deliver (repeatedFrames s) { s with turns := ts }) :=
  ((step_consumerTurn hagent hturn hraced).trans (consumerTurn_fallback _ hexpired)).trans
    (congrArg Host.Outcome.next (fallBack_enabled hexpired))

theorem step_rest (hagent : t = .consumer ∨ t = .deadline) (hturn : s.turns = t :: ts) (hraced : s.raced = false)
    (hidle : s.reqPhase = .idle) (hq : s.reqQ = []) : step s = .next { s with turns := ts } :=
  (step_consumerTurn hagent hturn hraced).trans (consumerTurn_rest _ hidle hq)

end

/-! ### Runs -/

theorem coreRun_of_step {M : Host.Core} {s t : M.State} (h : M.step s = .next t) (k : Nat) :
    M.run (k + 1) s = M.run k t := by
  rw [Host.Core.run, h]

theorem run_of_step {s t : State} (h : step s = .next t) (k : Nat) : core.run (k + 1) s = core.run k t :=
  coreRun_of_step (M := core) h k

/-- A wait that finds nothing ready ends in the fallback, however often the consumer polled before (R180, R182, R183). -/
theorem run_wait_fallback {s : State} {t : Turn} {ts : List Turn} (polls k : Nat) (hagent : t = .consumer ∨ t = .deadline)
    (hturn : s.turns = List.replicate polls .consumer ++ .deadline :: t :: ts) (hraced : s.raced = false)
    (hwait : s.reqPhase = .waiting) (hready : s.ready = false) :
    core.run (k + 2 + polls) s = core.run k (deliver (repeatedFrames s) { s with turns := ts }) := by
  induction polls generalizing s with
  | zero =>
    rw [Nat.add_zero, run_of_step (step_expire hturn hraced hwait hready)]
    exact run_of_step (step_fallback (s := { s with turns := t :: ts, reqPhase := .expired }) hagent rfl hraced rfl) k
  | succ polls ih =>
    rw [← Nat.add_assoc, run_of_step (step_poll hturn hraced hwait hready)]
    exact ih rfl hraced hwait hready

/-- After a delivery a consumer with no further request rests. -/
theorem run_deliver_rest {s : State} {fs : List Frame} {t : Turn} {ts : List Turn} (hagent : t = .consumer ∨ t = .deadline)
    (hstep : step s = .next (deliver fs { s with turns := t :: ts })) (hraced : s.raced = false) (hq : s.reqQ = []) :
    core.run 2 s = .next (deliver fs { s with turns := ts }) :=
  (run_of_step hstep 1).trans
    (run_of_step (step_rest (s := deliver fs { s with turns := t :: ts }) hagent rfl hraced rfl hq) 0)

/-- Settles O54, by whether the request is still waiting, and for what. -/
theorem acceptedRequestIsDelivered : Obligations.AcceptedRequestIsDelivered := by
  intro s ts hraced hbusy hq hturn
  cases hphase : s.reqPhase with
  | idle => exact absurd hphase hbusy
  | waiting =>
    cases hready : s.ready with
    | true =>
      have htake := step_take (.inr rfl) hturn hraced hphase hready
      exact ⟨_, _, run_deliver_rest (.inr rfl) htake hraced hq, rfl, length_readyFrames s, rfl, rfl⟩
    | false =>
      have hfall := run_wait_fallback 0 0 (.inr rfl) hturn hraced hphase hready
      exact ⟨_, _, hfall, rfl, length_repeatedFrames s, rfl, rfl⟩
  | expired =>
    have hfall := step_fallback (.inr rfl) hturn hraced hphase
    exact ⟨_, _, run_deliver_rest (.inr rfl) hfall hraced hq, rfl, length_repeatedFrames s, rfl, rfl⟩

/-! ### Two requests in a row -/

section
variable {s : State} {n : Word} {rest : List Word} {ts : List Turn} (hraced : s.raced = false) (hidle : s.reqPhase = .idle)
  (hq : s.reqQ = n :: rest) (hn : n ≠ 0) (hmax : n.toNat ≤ s.params.bufMax) (hcap : n.toNat = s.cap)
include hraced hidle hq hn hmax hcap

/-- A request that finds nothing ready delivers the last frame of the ready buffer throughout. -/
theorem run_unready_request (polls : Nat)
    (hturn : s.turns = .consumer :: (List.replicate polls .consumer ++ .deadline :: .consumer :: ts))
    (hready : s.ready = false) :
    core.run (3 + polls) s = .next (deliver (List.replicate n.toNat (readFrame s (!s.wsel) (n.toNat - 1)))
      (beginWait n { s with turns := ts, reqQ := rest })) := by
  rw [show 3 + polls = 2 + polls + 1 by omega,
    run_of_step (step_accept (.inl rfl) hturn hraced hidle hq hn hmax hcap)]
  exact run_wait_fallback polls 0 (.inl rfl) rfl hraced rfl hready

/-- A first request, ready or not, delivers as many frames as it asked for, the last one of the ready buffer at the end;
what is left of the six turns holds one poll if the frames were taken and none if they were repeated. -/
theorem run_first_request
    (hturn : s.turns = [.consumer, .deadline, .consumer, .consumer, .deadline, .consumer] ++ ts) :
    ∃ (first : List Frame) (polls : Nat),
      core.run 6 s = core.run (3 + polls) (deliver first (beginWait n { s with
        turns := .consumer :: (List.replicate polls .consumer ++ .deadline :: .consumer :: ts)
        reqQ := rest })) ∧
      first.length = n.toNat ∧ first.getLast? = some (readFrame s (!s.wsel) (n.toNat - 1)) := by
  have hcount : n.toNat ≠ 0 := fun h0 => hn (BitVec.eq_of_toNat_eq h0)
  have hrun := run_of_step (step_accept (.inl rfl) hturn hraced hidle hq hn hmax hcap) 5
  set w := beginWait n { s with
    turns := [.deadline, .consumer, .consumer, .deadline, .consumer] ++ ts
    reqQ := rest }
  rcases Bool.eq_false_or_eq_true s.ready with hready | hready
  · have htake := run_of_step (step_take (s := w) (.inr rfl) rfl hraced rfl hready) 4
    exact ⟨readyFrames w, 1, hrun.trans htake, length_readyFrames w, getLast?_readyFrames (s := w) hcount⟩
  · have hfall := run_wait_fallback (s := w) 0 3 (.inl rfl) rfl hraced rfl hready
    exact ⟨repeatedFrames w, 0, hrun.trans hfall, length_repeatedFrames w, getLast?_repeatedFrames (s := w) hcount⟩

end

/-- Settles O52: the first request clears `READY` and leaves the ready buffer, so the second one finds nothing ready and
repeats the same last frame. -/
theorem secondRequestRepeatsTheLastFrame : Obligations.SecondRequestRepeatsTheLastFrame := by
  intro s n ts hinv hraced hidle hn hcap hq hturn
  have hmax : n.toNat ≤ s.params.bufMax := hcap.trans_le hinv.cap_le
  obtain ⟨first, polls, hfirst, hlen, hlast⟩ := run_first_request hraced hidle hq hn hmax hcap hturn
  have hsecond := run_unready_request
    (s := deliver first (beginWait n { s with
      turns := .consumer :: (List.replicate polls .consumer ++ .deadline :: .consumer :: ts)
      reqQ := [n] }))
    hraced rfl rfl hn hmax hcap polls rfl rfl
  exact ⟨_, first, _, hfirst.trans hsecond, rfl, hlen, hlast, rfl, rfl⟩

end Sys2Proof.Machine
end

section
/-! The register bank (44_register_bank.md R200 to R213): each command as what it does once it is accepted, what a masked
write leaves to be read, the reload at an enable edge, and the header load. -/

namespace Sys2Proof.Machine

/-! ### Accepted commands -/

theorem next_whenAccepted {s : State} (hfree : s.swapPending = false) (run : State → State) :
    (.next (whenAccepted s run) : Result) = .next (run s) :=
  congrArg Host.Outcome.next (whenAccepted_run hfree run)

section
variable {s : State} (hfree : s.swapPending = false) (c : Chan) (m v : Word)
include hfree

theorem exec_wrCnt : exec (.wrCnt c m v) s = .next (writeCnt c m v s) :=
  next_whenAccepted hfree _

theorem exec_wrSad : exec (.wrSad c m v) s = .next (setChan s c
    { getChan s c with sad := maskedWrite (getChan s c).sad s.params.masks.sad m v }) :=
  next_whenAccepted hfree _

theorem exec_wrTmr : exec (.wrTmr c m v) s = .next (setChan s c
    { getChan s c with tmr := maskedWrite (getChan s c).tmr s.params.masks.tmr (m.truncate 16) (v.truncate 16) }) :=
  next_whenAccepted hfree _

theorem exec_wrPnt : exec (.wrPnt c m v) s = .next (setChan s c
    { getChan s c with pnt := maskedWrite (getChan s c).pnt s.params.masks.pnt (m.truncate 16) (v.truncate 16) }) :=
  next_whenAccepted hfree _

theorem exec_wrLen : exec (.wrLen c m v) s = .next (setChan s c
    { getChan s c with len := maskedWrite (getChan s c).len s.params.masks.len m v }) :=
  next_whenAccepted hfree _

theorem exec_wrMaster : exec (.wrMaster m v) s = .next
    { s with master := maskedWrite s.master s.params.masks.master (m.truncate 16) (v.truncate 16) } :=
  next_whenAccepted hfree _

theorem exec_wrBias : exec (.wrBias m v) s = .next
    { s with bias := maskedWrite s.bias s.params.masks.bias (m.truncate 16) (v.truncate 16) } :=
  next_whenAccepted hfree _

theorem exec_rdCnt : exec (.rdCnt c) s = .next (readOut (getChan s c).cnt s) :=
  next_whenAccepted hfree _

theorem exec_rdSad : exec (.rdSad c) s = .next (readOut (getChan s c).sad s) :=
  next_whenAccepted hfree _

theorem exec_rdTmr : exec (.rdTmr c) s = .next (readOut ((getChan s c).tmr.zeroExtend 32) s) :=
  next_whenAccepted hfree _

theorem exec_rdPnt : exec (.rdPnt c) s = .next (readOut ((getChan s c).pnt.zeroExtend 32) s) :=
  next_whenAccepted hfree _

theorem exec_rdLen : exec (.rdLen c) s = .next (readOut (getChan s c).len s) :=
  next_whenAccepted hfree _

theorem exec_rdMaster : exec .rdMaster s = .next (readOut (s.master.zeroExtend 32) s) :=
  next_whenAccepted hfree _

theorem exec_rdBias : exec .rdBias s = .next (readOut (s.bias.zeroExtend 32) s) :=
  next_whenAccepted hfree _

end

/-- Settles O11: the accepted writes are masked writes of the low halves. -/
theorem writeTimerAndLoopPoint : Obligations.WriteTimerAndLoopPoint :=
  fun c m v _ hfree => ⟨exec_wrTmr hfree c m v, exec_wrPnt hfree c m v⟩

/-- Settles O12: the accepted writes are masked writes, that of `MASTER` of the low halves. -/
theorem writeAddressLengthAndMaster : Obligations.WriteAddressLengthAndMaster :=
  fun c m v _ hfree => ⟨exec_wrSad hfree c m v, exec_wrLen hfree c m v, exec_wrMaster hfree m v⟩

/-- Settles O13: the accepted write is a masked write of the low halves. -/
theorem writeBias : Obligations.WriteBias := fun m v _ hfree => exec_wrBias hfree m v

/-! ### Reads -/

/-- The zero-extension of a register is its number in 32 bits, and the record is all that a read leaves (R212). -/
theorem readOut_zeroExtend {w : Nat} (x : BitVec w) (s : State) :
    readOut (x.zeroExtend 32) s = { s with history := .rdata (BitVec.ofNat 32 x.toNat) :: s.history } := by
  rw [BitVec.ofNat_toNat]
  rfl

theorem readOut_word (x : Word) (s : State) :
    readOut x s = { s with history := .rdata (BitVec.ofNat 32 x.toNat) :: s.history } := by
  rw [← readOut_zeroExtend, BitVec.zeroExtend, BitVec.setWidth_eq]

/-- Settles O17: the command is accepted, and what it reads out is the register as a number. -/
theorem readsReturnTheStoredRegister : Obligations.ReadsReturnTheStoredRegister := by
  intro c s hfree ch out
  refine ⟨?cnt, ?sad, ?tmr, ?pnt, ?len, ?master, ?bias⟩
  case cnt => rw [exec_rdCnt hfree, readOut_word]
  case sad => rw [exec_rdSad hfree, readOut_word]
  case tmr => rw [exec_rdTmr hfree, readOut_zeroExtend]
  case pnt => rw [exec_rdPnt hfree, readOut_zeroExtend]
  case len => rw [exec_rdLen hfree, readOut_word]
  case master => rw [exec_rdMaster hfree, readOut_zeroExtend]
  case bias => rw [exec_rdBias hfree, readOut_zeroExtend]

/-! ### The header load -/

theorem exec_startAdpcm (c : Chan) (s : State) : exec (.startAdpcm c) s = .next (loadHeader c s) := rfl

/-- The 17-bit accumulator holds every 16-bit seed, so it is not clamped (R205; D10). -/
theorem toInt_headerAcc (h : Word) : (headerAcc h).toInt = (h.extractLsb' 0 16).toInt := by
  rw [headerAcc, BitVec.toInt_signExtend_of_le (by decide), BitVec.truncate_eq_setWidth,
    BitVec.setWidth_eq_extractLsb' (by decide)]

/-- Seven bits hold every index up to 88. -/
theorem toNat_headerIdx (h : Word) : (headerIdx h).toNat = min (h.extractLsb' 16 7).toNat 88 := by
  rw [headerIdx, idxMax, BitVec.toNat_ofNat]
  omega

/-- Settles O16: the read leaves the landed stores and its record, and the header's fields go into the decoder. -/
theorem headerLoad : Obligations.HeaderLoad := by
  intro c s ch m h s1
  have hread : readMem ch.sad 4 s = (h, s1) := rfl
  refine ⟨headerAcc h, headerIdx h, ?_, toInt_headerAcc h, toNat_headerIdx h⟩
  rw [exec_startAdpcm, loadHeader, hread]

/-! ### The reload -/

theorem exec_reload (c : Chan) (s : State) : exec (.reload c) s = .next (reloadChan c s) := rfl

/-- A channel with pointer and timer counter at the start (R203). -/
def rewound (ch : Channel) : Channel := { ch with ptr := ch.sad, tcnt := ch.tmr }

section
variable {c : Chan} {s : State}

theorem reloadChan_pcm
    (h : formatOf s.params (getChan s c).cnt = .pcm8 ∨ formatOf s.params (getChan s c).cnt = .pcm16) :
    reloadChan c s = setChan s c (rewound (getChan s c)) := by
  rcases h with h | h <;> simp only [reloadChan, h, rewound]

theorem reloadChan_adpcm (h : formatOf s.params (getChan s c).cnt = .adpcm) :
    reloadChan c s = loadHeader c (setChan s c (rewound (getChan s c))) := by
  simp only [reloadChan, h, rewound]

theorem reloadChan_psg (h : formatOf s.params (getChan s c).cnt = .psg) :
    reloadChan c s = restartGenerator c (setChan s c (rewound (getChan s c))) := by
  simp only [reloadChan, h, rewound]

theorem restartGenerator_off (h : genOf s.params c = .silent ∨ s.params.psgRestart = false) :
    restartGenerator c s = s := by
  rcases h with h | h <;> simp [restartGenerator, h]

theorem restartGenerator_pulse (hgen : genOf s.params c = .pulse) (hon : s.params.psgRestart = true) :
    restartGenerator c s = setChan s c { getChan s c with dutyc := 0 } := by
  simp [restartGenerator, hgen, hon]

theorem restartGenerator_noise (hgen : genOf s.params c = .noise) (hon : s.params.psgRestart = true) :
    restartGenerator c s = setChan s c { getChan s c with lfsr := s.params.lfsrInit } := by
  simp [restartGenerator, hgen, hon]

end

/-- Settles O15: the format names the branch of the reload, and the generator what its restart does to the channel as
it was rewound. -/
theorem reloadByFormat : Obligations.ReloadByFormat := by
  intro c s ch fmt g ch1
  rw [exec_reload]
  refine ⟨?pcm, ?adpcm, ?still, ?pulse, ?noise⟩
  case pcm => exact fun h => congrArg _ (reloadChan_pcm h)
  case adpcm => exact fun h => ⟨_, exec_startAdpcm _ _, congrArg _ (reloadChan_adpcm h)⟩
  case still => exact fun h hoff => congrArg _ ((reloadChan_psg h).trans (restartGenerator_off hoff))
  case pulse =>
    intro h hgen hon
    rw [reloadChan_psg h, restartGenerator_pulse (by exact hgen) (by exact hon), setChan_setChan, getChan_setChan_same]
    rfl
  case noise =>
    intro h hgen hon
    rw [reloadChan_psg h, restartGenerator_noise (by exact hgen) (by exact hon), setChan_setChan, getChan_setChan_same]
    rfl

/-! ### The enable edge -/

theorem enableEdge_iff (old new : Word) :
    enableEdge old new = true ↔ old.getLsbD 31 = false ∧ new.getLsbD 31 = true := by
  rw [enableEdge, Bool.and_eq_true, Bool.not_eq_true']
  rfl

/-- Settles O14: the edge of the statement is the one that decides whether the write reloads. -/
theorem writeControlWithItsEdge : Obligations.WriteControlWithItsEdge := by
  intro c m v s hfree ch g new s1 edge
  have hiff : enableEdge ch.cnt new = true ↔ edge := enableEdge_iff ch.cnt new
  rw [exec_wrCnt hfree]
  rcases writeCnt_cases c m v s with ⟨hedge, he⟩ | ⟨hno, he⟩
  · exact ⟨fun _ => ⟨_, exec_reload c s1, congrArg _ he⟩, fun hn => absurd (hiff.mp hedge) hn⟩
  · exact ⟨fun hy => absurd (hiff.mpr hy) (ne_true_of_eq_false hno), fun _ => congrArg _ he⟩

/-! ### Reading back what was written -/

theorem loadHeader_cnt (c : Chan) (s : State) : (getChan (loadHeader c s) c).cnt = (getChan s c).cnt := by
  rw [loadHeader, getChan_setChan_same]

theorem restartGenerator_cnt (c : Chan) (s : State) :
    (getChan (restartGenerator c s) c).cnt = (getChan s c).cnt := by
  rcases restartGenerator_cases c s with ⟨-, -, he⟩ | ⟨-, -, he⟩ | ⟨-, he⟩ <;> rw [he]
  · rw [setDuty_eq, getChan_setChan_same]
  · rw [setLfsr_eq, getChan_setChan_same]

theorem reloadChan_cnt (c : Chan) (s : State) : (getChan (reloadChan c s) c).cnt = (getChan s c).cnt := by
  rcases reloadChan_cases c s with ⟨-, he⟩ | ⟨-, he⟩ | ⟨-, he⟩ <;> rw [he]
  · rw [getChan_setChan_same]
  · rw [loadHeader_cnt, getChan_setChan_same]
  · rw [restartGenerator_cnt, getChan_setChan_same]

/-- The reload at an edge leaves the control register as it was written (R202, R203). -/
theorem writeCnt_cnt (c : Chan) (m v : Word) (s : State) :
    (getChan (writeCnt c m v s) c).cnt = maskedWrite (getChan s c).cnt s.params.masks.cnt m v := by
  rcases writeCnt_cases c m v s with ⟨-, he⟩ | ⟨-, he⟩ <;> rw [he]
  · rw [reloadChan_cnt, getChan_setChan_same]
  · rw [getChan_setChan_same]

/-- A masked write of a 16-bit register is one in 32 bits: the register's mask has no bit above 15, so the high halves
of the command's mask and value do not matter (R207 to R211). -/
theorem zeroExtend_maskedWrite (reg g : Half) (m v : Word) :
    (maskedWrite reg g (m.truncate 16) (v.truncate 16)).zeroExtend 32 =
      maskedWrite (reg.zeroExtend 32) (g.zeroExtend 32) m v := by
  ext i hi
  rcases Nat.lt_or_ge i 16 with hlow | hhigh
  · simp [maskedWrite, hlow, BitVec.getLsbD_eq_getElem hi]
  · simp [maskedWrite, BitVec.getLsbD_of_ge _ _ hhigh]

/-- A write whose state reads out `x`, where `x` is the word `y` that the write was to leave (R213). -/
theorem exists_write_read {wr rd : Instr} {s t : State} {x y : Word} (hwr : exec wr s = .next t)
    (hrd : exec rd t = .next (readOut x t)) (hxy : x = y) :
    ∃ t u, exec wr s = .next t ∧ exec rd t = .next u ∧ u.history.head? = some (.rdata y) :=
  ⟨t, _, hwr, hrd, congrArg (fun z => some (PortEvent.rdata z)) hxy⟩

/-- Settles O18: the write leaves the command port free, and the read finds the masked write of the register. -/
theorem writeThenReadRoundTrip : Obligations.WriteThenReadRoundTrip := by
  intro c m v s hfree back ch g
  refine ⟨?cnt, ?sad, ?tmr, ?pnt, ?len, ?master, ?bias⟩
  case cnt =>
    have hfree' : (writeCnt c m v s).swapPending = false := (writeCnt_sameButChannels c m v s).swapPending.trans hfree
    exact exists_write_read (exec_wrCnt hfree c m v) (exec_rdCnt hfree' c) (writeCnt_cnt c m v s)
  case sad =>
    refine exists_write_read (exec_wrSad hfree c m v) (exec_rdSad (by exact hfree) c) ?_
    rw [getChan_setChan_same, maskedWrite_eq]
  case tmr =>
    refine exists_write_read (exec_wrTmr hfree c m v) (exec_rdTmr (by exact hfree) c) ?_
    rw [getChan_setChan_same, zeroExtend_maskedWrite, maskedWrite_eq]
  case pnt =>
    refine exists_write_read (exec_wrPnt hfree c m v) (exec_rdPnt (by exact hfree) c) ?_
    rw [getChan_setChan_same, zeroExtend_maskedWrite, maskedWrite_eq]
  case len =>
    refine exists_write_read (exec_wrLen hfree c m v) (exec_rdLen (by exact hfree) c) ?_
    rw [getChan_setChan_same, maskedWrite_eq]
  case master =>
    exact exists_write_read (exec_wrMaster hfree m v) (exec_rdMaster (by exact hfree)) (zeroExtend_maskedWrite _ _ m v)
  case bias =>
    exact exists_write_read (exec_wrBias hfree m v) (exec_rdBias (by exact hfree)) (zeroExtend_maskedWrite _ _ m v)

end Sys2Proof.Machine
end

section
/-! What each agent's turn keeps: the label of the fault record (60_exceptions.md R233) and the state that is not the
agent's own (60_exceptions.md R242, 20_memory.md R61, R65). One relation per agent, then its operations, its turn, and the
step. -/

namespace Sys2Proof.Machine

/-! ### The two frames -/

/-- What a turn of either agent keeps: the parameters, the input level, and the first label of the fault record. -/
structure AgentFrame (s t : State) : Prop where
  params : t.params = s.params
  limitRate : t.limitRate = s.limitRate
  label : ∀ f, s.fault = some f → t.fault = some f

/-- What the producer keeps besides: request state and capacity; memory changes by stores that land only. -/
structure ProducerFrame (s t : State) : Prop extends AgentFrame s t where
  reqPhase : t.reqPhase = s.reqPhase
  reqCount : t.reqCount = s.reqCount
  reqQ : t.reqQ = s.reqQ
  cap : t.cap = s.cap
  lands : ∃ k, t.mem = landed s k ∧ t.busStores = s.busStores.drop k

/-- What the consumer keeps besides: the channels with their generators, the global registers, the write buffer's identity,
the stall, the command queue, and memory with the stores under way to it. -/
structure ConsumerFrame (s t : State) : Prop extends AgentFrame s t where
  chans : t.chans = s.chans
  master : t.master = s.master
  bias : t.bias = s.bias
  wsel : t.wsel = s.wsel
  swapPending : t.swapPending = s.swapPending
  cmdQ : t.cmdQ = s.cmdQ
  mem : t.mem = s.mem
  busStores : t.busStores = s.busStores

theorem AgentFrame.refl (s : State) : AgentFrame s s := ⟨rfl, rfl, fun _ h => h⟩

/-- The record keeps the label it holds when another one is raised (60_exceptions.md R233). -/
theorem raiseFault_agentFrame (f : FaultRecord) (s : State) : AgentFrame s (raiseFault f s) :=
  ⟨rfl, rfl, fun g hg => by rw [raiseFault_fault, hg, Option.getD_some]⟩

theorem ProducerFrame.refl (s : State) : ProducerFrame s s :=
  { AgentFrame.refl s with
    reqPhase := rfl, reqCount := rfl, reqQ := rfl, cap := rfl, lands := ⟨0, (landed_zero s).symm, rfl⟩ }

theorem ConsumerFrame.refl (s : State) : ConsumerFrame s s :=
  ⟨.refl s, rfl, rfl, rfl, rfl, rfl, rfl, rfl, rfl⟩

/-- Work in the channels that does nothing but reads at the ports. -/
theorem SameButChannels.producerFrame {n : Nat} {s t : State} (h : SameButChannels s t) (hreads : OnlyReads n s t) :
    ProducerFrame s t := by
  obtain ⟨new, -, -, -, hmem, hstores⟩ := hreads
  exact { h with label := fun _ hf => h.fault.trans hf, lands := ⟨new.length, hmem, hstores⟩ }

/-- Work in the buffers after the producer's other work. -/
theorem ProducerFrame.buffers {s t u : State} (h : ProducerFrame s t) (k : SameButBuffers t u) : ProducerFrame s u where
  params := k.params.trans h.params
  limitRate := k.limitRate.trans h.limitRate
  label f hf := k.fault.trans (h.label f hf)
  reqPhase := k.reqPhase.trans h.reqPhase
  reqCount := k.reqCount.trans h.reqCount
  reqQ := k.reqQ.trans h.reqQ
  cap := k.cap.trans h.cap
  lands := by
    obtain ⟨n, hmem, hstores⟩ := h.lands
    exact ⟨n, k.mem.trans hmem, k.busStores.trans hstores⟩

/-! ### The producer's operations -/

theorem loadHeader_onlyReads (c : Chan) (s : State) : OnlyReads 1 s (loadHeader c s) :=
  (onlyReads_readMem s (getChan s c).sad 4).congr rfl rfl rfl

theorem restartGenerator_onlyReads (c : Chan) (s : State) : OnlyReads 0 s (restartGenerator c s) := by
  rcases restartGenerator_cases c s with ⟨-, -, he⟩ | ⟨-, -, he⟩ | ⟨-, he⟩ <;> rw [he]
  · exact onlyReads_none rfl rfl rfl
  · exact onlyReads_none rfl rfl rfl
  · exact .refl s

theorem reloadChan_onlyReads (c : Chan) (s : State) : OnlyReads 1 s (reloadChan c s) := by
  have hset (ch : Channel) : OnlyReads 0 s (setChan s c ch) := onlyReads_none rfl rfl rfl
  rcases reloadChan_cases c s with ⟨-, he⟩ | ⟨-, he⟩ | ⟨-, he⟩ <;> rw [he]
  · exact (hset _).mono (Nat.zero_le 1)
  · exact (hset _).trans (loadHeader_onlyReads c _) rfl
  · exact ((hset _).trans (restartGenerator_onlyReads c _) rfl).mono (Nat.zero_le 1)

/-- `WR_CNT` reads at most once, the header of its edge (44_register_bank.md R202, R205). -/
theorem writeCnt_onlyReads (c : Chan) (m v : Word) (s : State) : OnlyReads 1 s (writeCnt c m v s) := by
  have hset (ch : Channel) : OnlyReads 0 s (setChan s c ch) := onlyReads_none rfl rfl rfl
  rcases writeCnt_cases c m v s with ⟨-, he⟩ | ⟨-, he⟩ <;> rw [he]
  · exact (hset _).trans (reloadChan_onlyReads c _) rfl
  · exact (hset _).mono (Nat.zero_le 1)

theorem writeCnt_producerFrame (c : Chan) (m v : Word) (s : State) : ProducerFrame s (writeCnt c m v s) :=
  (writeCnt_sameButChannels c m v s).producerFrame (writeCnt_onlyReads c m v s)

theorem runTick_producerFrame (s : State) : ProducerFrame s (runTick s) := by
  obtain ⟨f, hrun⟩ := runTick_eq_pushFrame s
  have hwork := tickChans_frame s
  rw [hrun]
  exact (hwork.rest.producerFrame hwork.reads).buffers (pushFrame_sameButBuffers f _)

theorem releaseSwap_producerFrame (s : State) : ProducerFrame s (releaseSwap s) := by
  rcases releaseSwap_cases s with ⟨-, -, he⟩ | ⟨-, he⟩ <;> rw [he]
  · exact { ProducerFrame.refl s with }
  · exact .refl s

theorem raiseFault_producerFrame (f : FaultRecord) (s : State) : ProducerFrame s (raiseFault f s) :=
  { raiseFault_agentFrame f s, ProducerFrame.refl s with }

/-- A command that waits keeps everything. -/
theorem whenAccepted_producerFrame {s : State} {run : State → State} (h : ProducerFrame s (run s)) :
    ProducerFrame s (whenAccepted s run) := by
  cases hpending : s.swapPending with
  | true => exact (whenAccepted_held hpending run).symm ▸ .refl s
  | false => exact (whenAccepted_run hpending run).symm ▸ h

/-- Every command word completes within the producer's frame, by the table of 30_encoding.md R87. -/
theorem exec_decodeCommand_producerFrame (w : BitVec 72) (s : State) :
    ∃ t, exec (decodeCommand w) s = .next t ∧ ProducerFrame s t := by
  have hreserved (code : Byte) : ∃ t, exec (.reservedFx code) s = .next t ∧ ProducerFrame s t :=
    ⟨_, rfl, whenAccepted_producerFrame (raiseFault_producerFrame _ s)⟩
  unfold decodeCommand
  dsimp only
  split
  case h_1 => exact ⟨_, rfl, whenAccepted_producerFrame (writeCnt_producerFrame _ _ _ s)⟩
  case h_2 | h_3 | h_4 | h_5 | h_9 | h_10 | h_11 | h_12 | h_13 =>
    exact ⟨_, rfl, whenAccepted_producerFrame { ProducerFrame.refl s with }⟩
  case h_6 | h_7 | h_14 | h_15 =>
    split
    · exact ⟨_, rfl, whenAccepted_producerFrame { ProducerFrame.refl s with }⟩
    · exact hreserved _
  case h_8 =>
    split
    · exact ⟨_, rfl, whenAccepted_producerFrame (runTick_producerFrame s)⟩
    · exact hreserved _
  case h_16 => exact hreserved _

/-! ### The consumer's operations -/

theorem raiseFault_consumerFrame (f : FaultRecord) (s : State) : ConsumerFrame s (raiseFault f s) :=
  { raiseFault_agentFrame f s, ConsumerFrame.refl s with }

theorem startRequest_consumerFrame (n : Word) (s : State) : ConsumerFrame s (startRequest n s) := by
  rcases startRequest_cases n s with ⟨-, he⟩ | ⟨-, -, he⟩ | ⟨-, -, -, he⟩ | ⟨-, -, -, -, he⟩ | ⟨-, -, -, -, he⟩ <;> rw [he]
  · exact raiseFault_consumerFrame _ s
  · exact raiseFault_consumerFrame _ s
  · exact { ConsumerFrame.refl s with }
  · exact raiseFault_consumerFrame _ s
  · exact { ConsumerFrame.refl s with }

theorem takeFrames_consumerFrame (s : State) : ConsumerFrame s (takeFrames s) := by
  rcases takeFrames_cases s with ⟨-, -, he⟩ | ⟨-, he⟩ <;> rw [he]
  · exact { ConsumerFrame.refl s with }
  · exact .refl s

theorem expireWait_consumerFrame (s : State) : ConsumerFrame s (expireWait s) := by
  rcases expireWait_cases s with ⟨-, -, he⟩ | ⟨-, he⟩ <;> rw [he]
  · exact { ConsumerFrame.refl s with }
  · exact .refl s

theorem fallBack_consumerFrame (s : State) : ConsumerFrame s (fallBack s) := by
  rcases fallBack_cases s with ⟨-, he⟩ | ⟨-, he⟩ <;> rw [he]
  · exact { ConsumerFrame.refl s with }
  · exact .refl s

/-! ### The agents' turns -/

theorem producerTurn_rest {s : State} (hfree : s.swapPending = false) (hq : s.cmdQ = []) : producerTurn s = .next s := by
  simp [producerTurn, hfree, hq]

theorem producerTurn_producerFrame (s : State) : ∃ t, producerTurn s = .next t ∧ ProducerFrame s t := by
  cases hpending : s.swapPending with
  | true => exact ⟨_, producerTurn_stalled hpending, releaseSwap_producerFrame s⟩
  | false =>
    cases hq : s.cmdQ with
    | nil => exact ⟨s, producerTurn_rest hpending hq, .refl s⟩
    | cons w rest =>
      obtain ⟨t, hexec, hframe⟩ := exec_decodeCommand_producerFrame w { s with cmdQ := rest }
      exact ⟨t, (producerTurn_command hq hpending).trans hexec, { hframe with }⟩

theorem consumerTurn_consumerFrame (deadlinePassed : Bool) (s : State) :
    ∃ t, consumerTurn deadlinePassed s = .next t ∧ ConsumerFrame s t := by
  cases hphase : s.reqPhase with
  | idle =>
    cases hq : s.reqQ with
    | nil => exact ⟨s, consumerTurn_rest _ hphase hq, .refl s⟩
    | cons n rest =>
      have hexec := exec_reqStart_idle (s := { s with reqQ := rest }) hphase n
      exact ⟨_, (consumerTurn_request hq hphase _).trans hexec,
        { startRequest_consumerFrame n { s with reqQ := rest } with }⟩
  | waiting =>
    cases hready : s.ready with
    | true => exact ⟨_, consumerTurn_take _ hphase hready, takeFrames_consumerFrame s⟩
    | false =>
      cases deadlinePassed with
      | true => exact ⟨_, consumerTurn_expire hphase hready, expireWait_consumerFrame s⟩
      | false => exact ⟨s, consumerTurn_poll hphase hready, .refl s⟩
  | expired => exact ⟨_, consumerTurn_fallback _ hphase, fallBack_consumerFrame s⟩

/-! ### One step -/

/-- What is known of the one state an operation answers with. -/
theorem holds_of_next {r : Result} {P : State → Prop} (h : ∃ u, r = .next u ∧ P u) {t : State} (ht : r = .next t) : P t := by
  obtain ⟨u, hu, hP⟩ := h
  exact Host.Outcome.next.inj (hu.symm.trans ht) ▸ hP

/-- A step by its turn, with what the agents' turns keep in place of what they run. -/
theorem step_frame {s t : State} {a : Turn} {ts : List Turn} (hturn : s.turns = a :: ts) (hstep : step s = .next t) :
    (a = .producer ∧ ProducerFrame s t) ∨
      ((a = .consumer ∨ a = .deadline) ∧ ConsumerFrame s t) ∨
      (∃ l, a = .limitRate l ∧ t = { s with turns := ts, limitRate := l }) ∨
      (∃ x v, a = .poke x v ∧ t = { s with turns := ts, mem := memPut s.mem x.toNat v }) ∨
      (a = .reset ∧ t = resetBlock { s with turns := ts }) := by
  rcases step_cases hstep with ⟨hnil, -⟩ | ⟨b, us, hturn', hact⟩
  · exact absurd (hnil.symm.trans hturn) (List.cons_ne_nil a ts).symm
  obtain ⟨rfl, rfl⟩ := List.cons.inj (hturn.symm.trans hturn')
  rcases hact with ⟨ha, -, hrun⟩ | ⟨ha, -, hrun⟩ | ⟨ha, -, hrun⟩ | hlevel | hpoke | hreset
  · exact .inl ⟨ha, { holds_of_next (producerTurn_producerFrame _) hrun with }⟩
  · exact .inr (.inl ⟨.inl ha, { holds_of_next (consumerTurn_consumerFrame _ _) hrun with }⟩)
  · exact .inr (.inl ⟨.inr ha, { holds_of_next (consumerTurn_consumerFrame _ _) hrun with }⟩)
  · exact .inr (.inr (.inl hlevel))
  · exact .inr (.inr (.inr (.inl hpoke)))
  · exact .inr (.inr (.inr (.inr hreset)))

/-- Settles O21: the agents keep the label, the inputs do not reach the record, and no turn left changes nothing. -/
theorem firstFaultIsKept : Obligations.FirstFaultIsKept := by
  intro s t f hstep hf hno
  cases hturn : s.turns with
  | nil =>
    rw [step, hturn] at hstep
    exact Host.Outcome.next.inj hstep ▸ hf
  | cons a ts =>
    rcases step_frame hturn hstep with ⟨-, h⟩ | ⟨-, h⟩ | ⟨l, -, rfl⟩ | ⟨x, v, -, rfl⟩ | ⟨rfl, -⟩
    · exact h.label f hf
    · exact h.label f hf
    · exact hf
    · exact hf
    · exact absurd (congrArg List.head? hturn) hno

/-- Settles O58, by the turn: each agent's frame, and for the inputs and the reset what they assign. -/
theorem agentsKeepToTheirOwnState : Obligations.AgentsKeepToTheirOwnState := by
  intro s t a ts hturn hstep
  have hstill : s.mem = landed s 0 ∧ s.busStores = s.busStores.drop 0 := ⟨(landed_zero s).symm, rfl⟩
  rcases step_frame hturn hstep with ⟨rfl, h⟩ | ⟨ha, h⟩ | ⟨l, rfl, rfl⟩ | ⟨x, v, rfl, rfl⟩ | ⟨rfl, rfl⟩
  · exact ⟨by simp, fun _ => ⟨h.reqPhase, h.reqCount, h.reqQ, h.cap⟩, fun _ => h.lands, h.params, fun _ => h.limitRate⟩
  · refine ⟨fun _ => ⟨h.chans, h.master, h.bias, h.wsel, h.swapPending, h.cmdQ, h.mem, h.busStores⟩, ?_,
      fun _ => ⟨0, h.mem.trans hstill.1, h.busStores⟩, h.params, fun _ => h.limitRate⟩
    rintro rfl
    simp at ha
  · exact ⟨by simp, by simp, fun _ => ⟨0, hstill⟩, rfl, fun hno => absurd rfl (hno l)⟩
  · exact ⟨by simp, by simp, fun hno => absurd rfl (hno x v), rfl, fun _ => rfl⟩
  · exact ⟨by simp, by simp, fun _ => ⟨0, hstill⟩, rfl, fun _ => rfl⟩

end Sys2Proof.Machine
end

section
/-! The turns in which no command and no request is run (70_reset_and_hazards.md R260, R262), the stop after a resize race
(60_exceptions.md R231), and the values right after a reset (10_state.md R35). -/

namespace Sys2Proof.Machine

/-! ### The turns without an operation of an agent -/

section
variable {s : State} {ts : List Turn}

theorem step_of_no_turn (hturn : s.turns = []) : step s = .next s := by
  rw [step, hturn]

theorem agentTurn_of_raced (hraced : s.raced = true) (run : State → Result) : agentTurn run s = .fault .resizeRace :=
  if_pos hraced

/-- A step that takes a turn of either agent after a resize race was raised. -/
theorem step_raced {t : Turn} (hagent : t = .producer ∨ t = .consumer ∨ t = .deadline) (hturn : s.turns = t :: ts)
    (hraced : s.raced = true) : step s = .fault .resizeRace := by
  have hstop := agentTurn_of_raced (s := { s with turns := ts }) hraced
  rcases hagent with rfl | rfl | rfl
  · exact (step_of_turn hturn).trans (hstop producerTurn)
  · exact (step_of_turn hturn).trans (hstop (consumerTurn false))
  · exact (step_of_turn hturn).trans (hstop (consumerTurn true))

theorem step_producer_rest (hturn : s.turns = .producer :: ts) (hraced : s.raced = false)
    (hfree : s.swapPending = false) (hq : s.cmdQ = []) : step s = .next { s with turns := ts } :=
  (step_producerTurn hturn hraced).trans (producerTurn_rest hfree hq)

end

/-- Settles O10, by the turn: none left, an idle agent, an input, `rst`, and an agent after the race. -/
theorem otherTurns : Obligations.OtherTurns := by
  intro s ts
  refine ⟨step_of_no_turn, ?producer, ?consumer, fun l hturn => ?level, fun a v hturn => ?store, fun hturn => ?rst, ?race⟩
  case producer => exact fun hturn hq hfree hraced => step_producer_rest hturn hraced hfree hq
  case consumer => exact fun t hagent hturn hq hidle hraced => step_rest hagent hturn hraced hidle hq
  case level | rst => exact step_of_turn hturn
  case store => exact step_poke hturn
  case race => exact fun t hagent hturn hraced => step_raced hagent hturn hraced

/-! ### The values right after a reset -/

/-- Settles O55: every channel is `Channel.reset`, and each buffer holds `CAP_RESET` frames, drawn by `RESET` and none in
the reset state. -/
theorem resetValues : Obligations.ResetValues := by
  intro s
  refine ⟨resetBlock s, rfl, fun r hr => ?_, by simp⟩
  rcases List.mem_pair.mp hr with rfl | rfl
  · exact ⟨getChan_resetBlock s, by simp⟩
  · exact ⟨getChan_reset, by decide⟩

end Sys2Proof.Machine
end
